-- ==== Sys2Proof/Word.lean ====
section
/-! DEFINITION. The value types of the block: bytes and the wider unsigned fields of R97. -/

namespace Sys2Proof

/-- An 8-bit byte (R12, R61). -/
abbrev Byte := BitVec 8

/-- A 16-bit field: `u16`, `addr16`, the length field (R97, R91). -/
abbrev U16 := BitVec 16

/-- A 64-bit address (R97 `addr64`). -/
abbrev U64 := BitVec 64

end Sys2Proof
end

