-- ==== Sys2Proof/Config.lean ====
section
/-! DEFINITION. What an implementation fixes: the parameters of R7 and the free values. -/

namespace Sys2Proof

/-- The arguments of R7, fixed for the life of an instance (R80). Every claim about a state
ranges over their values, since a state carries them. -/
structure Cfg where
  /-- `CFG.escaped` (R30): API escaped mode. -/
  escaped : Bool
  /-- `LQ_DEPTH` (R31): capacity of the listener queue, at least 1. -/
  lqDepth : Nat
  /-- `CORR_PRESENT` (R9): whether unit 5 exists. -/
  corrPresent : Bool
  /-- `IOS_NSAMP_PREFIX(0x92)` (R271). -/
  nsampIo : Bool
  /-- `IOS_NSAMP_PREFIX(0x82)` (R271). -/
  nsampRx64 : Bool
  /-- `IOS_NSAMP_PREFIX(0x83)` (R271). -/
  nsampRx16 : Bool
  /-- `FT_DEVICE_REQUEST` (R120). -/
  ftDeviceRequest : Byte
  /-- `FT_SEND_DATA_REQUEST` (R121). -/
  ftSendDataRequest : Byte
  /-- `ADDR16_BROADCAST` (R212). -/
  addr16Broadcast : U16
deriving DecidableEq, Repr

/-- The 19 fixed frame-type bytes of R100. -/
def fixedCodes : List Byte :=
  [0x00, 0x01, 0x08, 0x09, 0x10, 0x11, 0x17, 0x80, 0x81, 0x82, 0x83, 0x88, 0x89, 0x8A, 0x8B,
   0x90, 0x91, 0x92, 0x97]

/-- The stated ranges of R7: a queue of at least one packet, and two frame-type bytes that differ
from each other and from the 19 fixed ones. -/
def Cfg.valid (c : Cfg) : Bool :=
  decide (1 ≤ c.lqDepth) && decide (c.ftDeviceRequest ≠ c.ftSendDataRequest) &&
  !fixedCodes.contains c.ftDeviceRequest && !fixedCodes.contains c.ftSendDataRequest

/-- The configuration of `State.reset`. DESIGN CHOICE (unsafe, entry 3): plain mode, depth 4, unit 5
present, no prefix bytes. PRESUMED (unsafe, entry 3): the frame-type bytes 0xB9 and 0x28 and the
address 0xFFFF, which the spec suggests from general knowledge (G1, G2). -/
def Cfg.initial : Cfg :=
  { escaped := false, lqDepth := 4, corrPresent := true
    nsampIo := false, nsampRx64 := false, nsampRx16 := false
    ftDeviceRequest := 0xB9, ftSendDataRequest := 0x28, addr16Broadcast := 0xFFFF }

/-- `MAX_LEN` (R7): the largest payload length. -/
def maxLen : Nat := 65535

/-- `ADDR64_BROADCAST` (R7). -/
def addr64Broadcast : U64 := 0x000000000000FFFF

/-- `ADDR16_UNKNOWN` (R7); no rule reads it. -/
def addr16Unknown : U16 := 0xFFFE

/-- `ADDR16_COORDINATOR` (R7); no rule reads it. -/
def addr16Coordinator : U16 := 0x0000

/-- What a full listener queue may do (R7). -/
inductive LqPolicy where
  | dropOldest
  | backpressure
deriving DecidableEq, Repr

/-- `LQ_POLICY` (R7, R31): fixed to drop-oldest. -/
def lqPolicy : LqPolicy := .dropOldest

/-- The field names an `OutOfRange` can carry (R240, R193). -/
inductive FieldName where
  | rssi
  | target
  | path
  | contentType
  | length
  | rfData
  | parameter
  | value
  | data
  | fileData
deriving DecidableEq, Repr

/-- FREE VALUE (DESIGN CHOICE, safe, entry 7): what `OutOfRange` records as the offending value when
a trailing field is `Some` of an empty sequence; R240 gives the check and states no value. -/
opaque Config.emptyTrailingValue : FieldName → Nat

/-- FREE VALUE (DESIGN CHOICE, safe, entry 7): what `OutOfRange` records as the valid range in the
same case; R240 states none. -/
opaque Config.emptyTrailingRange : FieldName → Nat × Nat

end Sys2Proof
end

