-- ==== Sys2Proof/Syntax.lean ====
section
/-! DEFINITION. The syntax: packets, errors, samples, the instruction type with one constructor per
row of the opcode table, and the items that arrive on the input ports. -/

namespace Sys2Proof

/-! ## Frame types and packet records (R100, R101 to R121, R206) -/

/-- The 21 rows of the frame-type table (R100). -/
inductive FrameType where
  | tx64
  | tx16
  | atCommand
  | atCommandQueue
  | transmitRequest
  | explicitAddressing
  | remoteAtCommand
  | rx64
  | rx16
  | rx64Io
  | rx16Io
  | atCommandResponse
  | txStatus
  | modemStatus
  | transmitStatus
  | receivePacket
  | explicitRxIndicator
  | ioDataSampleRx
  | remoteAtCommandResponse
  | deviceRequest
  | sendDataRequest
deriving DecidableEq, Repr

/-- Layout R101. -/
structure Tx64 where
  frameId : Byte
  addr64 : U64
  options : Byte
  rfData : Option (List Byte)
deriving DecidableEq, Repr

/-- Layout R102. -/
structure Tx16 where
  frameId : Byte
  addr16 : U16
  options : Byte
  rfData : Option (List Byte)
deriving DecidableEq, Repr

/-- Layout R103, shared by R104. The command is two bytes in wire order (`ascii2`, R97). -/
structure AtCommand where
  frameId : Byte
  command : Byte × Byte
  parameter : Option (List Byte)
deriving DecidableEq, Repr

/-- Layout R105. -/
structure TransmitRequest where
  frameId : Byte
  addr64 : U64
  addr16 : U16
  bcastRadius : Byte
  options : Byte
  rfData : Option (List Byte)
deriving DecidableEq, Repr

/-- Layout R106. -/
structure ExplicitAddressing where
  frameId : Byte
  addr64 : U64
  addr16 : U16
  srcEp : Byte
  dstEp : Byte
  cluster : U16
  profile : U16
  bcastRadius : Byte
  options : Byte
  rfData : Option (List Byte)
deriving DecidableEq, Repr

/-- Layout R107. -/
structure RemoteAtCommand where
  frameId : Byte
  addr64 : U64
  addr16 : U16
  options : Byte
  command : Byte × Byte
  parameter : Option (List Byte)
deriving DecidableEq, Repr

/-- Layout R108, shared by R110. -/
structure Rx64 where
  addr64 : U64
  rssi : Byte
  options : Byte
  rfData : Option (List Byte)
deriving DecidableEq, Repr

/-- Layout R109, shared by R111. -/
structure Rx16 where
  addr16 : U16
  rssi : Byte
  options : Byte
  rfData : Option (List Byte)
deriving DecidableEq, Repr

/-- Layout R112. -/
structure AtCommandResponse where
  frameId : Byte
  command : Byte × Byte
  status : Byte
  value : Option (List Byte)
deriving DecidableEq, Repr

/-- Layout R113. -/
structure TxStatus where
  frameId : Byte
  status : Byte
deriving DecidableEq, Repr

/-- Layout R114. -/
structure ModemStatus where
  status : Byte
deriving DecidableEq, Repr

/-- Layout R115. -/
structure TransmitStatus where
  frameId : Byte
  addr16 : U16
  retryCount : Byte
  deliveryStatus : Byte
  discoveryStatus : Byte
deriving DecidableEq, Repr

/-- Layout R116, shared by R118. -/
structure ReceivePacket where
  addr64 : U64
  addr16 : U16
  options : Byte
  rfData : Option (List Byte)
deriving DecidableEq, Repr

/-- Layout R117. -/
structure ExplicitRxIndicator where
  addr64 : U64
  addr16 : U16
  srcEp : Byte
  dstEp : Byte
  cluster : U16
  profile : U16
  options : Byte
  rfData : Option (List Byte)
deriving DecidableEq, Repr

/-- Layout R119. -/
structure RemoteAtCommandResponse where
  frameId : Byte
  addr64 : U64
  addr16 : U16
  command : Byte × Byte
  status : Byte
  value : Option (List Byte)
deriving DecidableEq, Repr

/-- Layout R120. `target_len` is no field (R233). The empty `target` is the spec's `None`
(DEDUCED, entry 18: the record has no other empty target). -/
structure DeviceRequest where
  requestId : Byte
  transport : Byte
  flags : Byte
  target : List Byte
  data : Option (List Byte)
deriving DecidableEq, Repr

/-- Layout R121. `path_len` and `content_type_len` are no fields (R234). The empty `path` and
`contentType` are the spec's `None` (DEDUCED, entry 18). -/
structure SendDataRequest where
  frameId : Byte
  path : List Byte
  contentType : List Byte
  transport : Byte
  options : Byte
  fileData : Option (List Byte)
deriving DecidableEq, Repr

/-- The wire fields of a packet: a tagged union, one variant per frame type (R206). -/
inductive Packet where
  | tx64 (f : Tx64)
  | tx16 (f : Tx16)
  | atCommand (f : AtCommand)
  | atCommandQueue (f : AtCommand)
  | transmitRequest (f : TransmitRequest)
  | explicitAddressing (f : ExplicitAddressing)
  | remoteAtCommand (f : RemoteAtCommand)
  | rx64 (f : Rx64)
  | rx16 (f : Rx16)
  | rx64Io (f : Rx64)
  | rx16Io (f : Rx16)
  | atCommandResponse (f : AtCommandResponse)
  | txStatus (f : TxStatus)
  | modemStatus (f : ModemStatus)
  | transmitStatus (f : TransmitStatus)
  | receivePacket (f : ReceivePacket)
  | explicitRxIndicator (f : ExplicitRxIndicator)
  | ioDataSampleRx (f : ReceivePacket)
  | remoteAtCommandResponse (f : RemoteAtCommandResponse)
  | deviceRequest (f : DeviceRequest)
  | sendDataRequest (f : SendDataRequest)
deriving DecidableEq, Repr

/-! ## IO samples (R122, R262) -/

/-- `DigitalLevel` (R262). -/
inductive Level where
  | high
  | low
deriving DecidableEq, Repr

/-- The `IoSample` record (R262): the two maps are partial, `none` where undefined. -/
structure IoSample where
  digitalMask : U16
  analogMask : Byte
  digital : Vector (Option Level) 16
  analog : Vector (Option U16) 6
  power : Option U16
deriving DecidableEq, Repr

/-- The three frame types whose trailing region is offered to the IO sample codec (R260). -/
inductive IoType where
  | ioDataSampleRx
  | rx64Io
  | rx16Io
deriving DecidableEq, Repr

/-- An IO sample block split into the fields of R122. -/
structure IosBlock where
  /-- The "number of samples" byte, not interpreted (R271). -/
  nsamples : Option Byte
  digitalMask : U16
  analogMask : Byte
  digitalValues : Option U16
  /-- One value per set bit of `analogMask[5:0]`, in increasing bit order. -/
  analogValues : List U16
  power : Option U16
  /-- Bytes beyond those the masks call for, ignored by the codec (R268). -/
  excess : List Byte
deriving DecidableEq, Repr

/-! ## Decoded packets (R206) -/

/-- A packet with the two computed fields of R206, as a decode produces it. -/
structure Decoded where
  packet : Packet
  isBroadcast : Bool
  ioSample : Option IoSample
deriving DecidableEq, Repr

/-! ## Error events (R317) -/

/-- The eleven errors `E1` to `E11` of R317, kept apart as R319 asks. -/
inductive ErrorEvent where
  | checksumError
  | nullPayload
  | incomplete (expectedMin actual : Nat)
  | wrongFrameType (expected actual : Byte)
  | unknownFrameType (byte : Byte)
  | outOfRange (field : FieldName) (value lo hi : Nat)
  | timeout (f : Byte)
  | connectionClosed (f : Option Byte)
  | noPendingRequest
  | frameIdInUse (f : Byte)
  | operationNotSupported
deriving DecidableEq, Repr

/-- Where a decode error goes (R317): to the caller of a `CODEC` operation, or to `EVT_OUT` on the
receive path. -/
inductive DecodeSink where
  | caller
  | receivePath
deriving DecidableEq, Repr

/-- Where an `OutOfRange` goes (R317): to the caller of `ENCODE`, or to the caller of a `TX_REQ`
operation. -/
inductive RangeSink where
  | codecCaller
  | txCaller
deriving DecidableEq, Repr

/-! ## The receive state (R21) -/

/-- `RX.state` (R21). -/
inductive RxState where
  | awaitingDelimiter
  | readingLength
  | readingPayload
  | readingChecksum
deriving DecidableEq, Repr

/-! ## Instructions -/

/-- One constructor per row of the opcode table. -/
inductive Instr where
  -- stream-byte rows: the classes of R95 and the escape pairs of R94
  | rawDelimiter
  | rawNoise (b : Byte)
  | rawEscapeMarker
  | rawEscapedSecond (b : Byte)
  | rawLiteral (b : Byte)
  | escPair7E
  | escPair7D
  | escPair11
  | escPair13
  -- frame-envelope row (R90)
  | frame (payload : List Byte) (checksum : Byte)
  -- frame-type rows (R100)
  | tx64 (f : Tx64)
  | tx16 (f : Tx16)
  | atCommand (f : AtCommand)
  | atCommandQueue (f : AtCommand)
  | transmitRequest (f : TransmitRequest)
  | explicitAddressing (f : ExplicitAddressing)
  | remoteAtCommand (f : RemoteAtCommand)
  | rx64 (f : Rx64)
  | rx16 (f : Rx16)
  | rx64Io (f : Rx64)
  | rx16Io (f : Rx16)
  | atCommandResponse (f : AtCommandResponse)
  | txStatus (f : TxStatus)
  | modemStatus (f : ModemStatus)
  | transmitStatus (f : TransmitStatus)
  | receivePacket (f : ReceivePacket)
  | explicitRxIndicator (f : ExplicitRxIndicator)
  | ioDataSampleRx (f : ReceivePacket)
  | remoteAtCommandResponse (f : RemoteAtCommandResponse)
  | deviceRequest (f : DeviceRequest)
  | sendDataRequest (f : SendDataRequest)
  -- ios-block row (R122)
  | iosBlock (t : IoType) (blk : IosBlock)
  -- event rows: the operations of R10 and DELIVER (R286)
  | rxByte (b : Byte)
  | txFrame (p : List Byte)
  | checksum (p : List Byte)
  | escape (r : List Byte)
  | unescape (pending : Bool) (w : List Byte)
  | decodeFrame (p : List Byte)
  | decodeAs (t : FrameType) (p : List Byte)
  | encode (pkt : Packet)
  | iosDecode (t : IoType) (b : Option (List Byte))
  | iosPower (sample : IoSample)
  | send (pkt : Packet)
  | sendAndWait (pkt : Packet)
  | deliver (pkt : Packet)
  | corrTimeout (f : Byte)
  | corrCancel (f : Byte)
  | lqPop
  | reset
  | close
  -- error-event rows (R317)
  | checksumError
  | nullPayload (sink : DecodeSink)
  | incomplete (expectedMin actual : Nat) (sink : DecodeSink)
  | wrongFrameType (expected actual : Byte)
  | unknownFrameType (byte : Byte) (sink : DecodeSink)
  | outOfRange (field : FieldName) (value lo hi : Nat) (sink : RangeSink)
  | timeout (f : Byte)
  | connectionClosed (f : Option Byte)
  | noPendingRequest
  | frameIdInUse (f : Byte)
  | operationNotSupported
deriving DecidableEq, Repr

/-! ## What arrives on the ports -/

/-- The input events of R10, each with its operands. -/
inductive Event where
  | rxByte (b : Byte)
  | txFrame (p : List Byte)
  | send (pkt : Packet)
  | sendAndWait (pkt : Packet)
  | decodeFrame (p : List Byte)
  | decodeAs (t : FrameType) (p : List Byte)
  | encode (pkt : Packet)
  | iosDecode (t : IoType) (b : Option (List Byte))
  | iosPower (sample : IoSample)
  | checksum (p : List Byte)
  | escape (r : List Byte)
  | unescape (pending : Bool) (w : List Byte)
  | corrTimeout (f : Byte)
  | corrCancel (f : Byte)
  | reset
  | close
  | lqPop
deriving DecidableEq, Repr

/-- One thing waiting at the block: bits on one of the four encoding layers of `30_encoding.md`, or
an event given whole, which has no bit encoding (D25). Entries 1, 9 to 12. -/
inductive Item where
  /-- One raw byte on `RX_IN`; which row it is, R95 says. -/
  | rxIn (b : Byte)
  /-- Several raw bytes handed over by one transport read (R68). -/
  | rxChunk (bs : List Byte)
  /-- One logical byte of the stuffed region on the transmit side (R94). -/
  | stuffed (b : Byte)
  /-- A verified payload on `FRAME_OUT`, handed to the dispatcher (R169, R241). -/
  | payload (p : List Byte)
  /-- A trailing region offered to the IO sample codec (R260). -/
  | block (t : IoType) (b : List Byte)
  /-- An input event of R10. -/
  | event (e : Event)
deriving DecidableEq, Repr

end Sys2Proof
end

