-- ==== Sys2Proof/Machine/FrameTable.lean ====
section
/-! DEFINITION. The frame-type table `FT` (R33, R100), the response-family relation (R290) and the
per-type constants. -/

namespace Sys2Proof.Machine

/-- The rows of R100 in the table's order: the 19 fixed codes first. -/
def allFrameTypes : List FrameType :=
  [.tx64, .tx16, .atCommand, .atCommandQueue, .transmitRequest, .explicitAddressing,
   .remoteAtCommand, .rx64, .rx16, .rx64Io, .rx16Io, .atCommandResponse, .txStatus, .modemStatus,
   .transmitStatus, .receivePacket, .explicitRxIndicator, .ioDataSampleRx,
   .remoteAtCommandResponse, .deviceRequest, .sendDataRequest]

/-- The frame-type byte of a row (R100). -/
def frameCode (c : Cfg) : FrameType → Byte
  | .tx64 => 0x00
  | .tx16 => 0x01
  | .atCommand => 0x08
  | .atCommandQueue => 0x09
  | .transmitRequest => 0x10
  | .explicitAddressing => 0x11
  | .remoteAtCommand => 0x17
  | .rx64 => 0x80
  | .rx16 => 0x81
  | .rx64Io => 0x82
  | .rx16Io => 0x83
  | .atCommandResponse => 0x88
  | .txStatus => 0x89
  | .modemStatus => 0x8A
  | .transmitStatus => 0x8B
  | .receivePacket => 0x90
  | .explicitRxIndicator => 0x91
  | .ioDataSampleRx => 0x92
  | .remoteAtCommandResponse => 0x97
  | .deviceRequest => c.ftDeviceRequest
  | .sendDataRequest => c.ftSendDataRequest

/-- `FT[b]` (R33, R100): the row of a frame-type byte, or "none". -/
def ftLookup (c : Cfg) (b : Byte) : Option FrameType :=
  allFrameTypes.find? fun t => frameCode c t == b

/-- `MIN_LENGTH` (R100): 1 plus the sizes of the fixed fields (R96). -/
def minLength : FrameType → Nat
  | .tx64 => 11
  | .tx16 => 5
  | .atCommand => 4
  | .atCommandQueue => 4
  | .transmitRequest => 14
  | .explicitAddressing => 20
  | .remoteAtCommand => 15
  | .rx64 => 11
  | .rx16 => 5
  | .rx64Io => 11
  | .rx16Io => 5
  | .atCommandResponse => 5
  | .txStatus => 3
  | .modemStatus => 2
  | .transmitStatus => 7
  | .receivePacket => 12
  | .explicitRxIndicator => 18
  | .ioDataSampleRx => 12
  | .remoteAtCommandResponse => 15
  | .deviceRequest => 5
  | .sendDataRequest => 6

/-- `needs_frame_id` (R100). -/
def needsFrameId : FrameType → Bool
  | .tx64 | .tx16 | .atCommand | .atCommandQueue | .transmitRequest | .explicitAddressing
  | .remoteAtCommand | .atCommandResponse | .txStatus | .transmitStatus
  | .remoteAtCommandResponse | .sendDataRequest => true
  | .rx64 | .rx16 | .rx64Io | .rx16Io | .modemStatus | .receivePacket | .explicitRxIndicator
  | .ioDataSampleRx | .deviceRequest => false

/-- The broadcast class of a type (R100, R212). -/
inductive BroadcastClass where
  | address
  | options
  | never
deriving DecidableEq, Repr

/-- The class assignment of R212. -/
def broadcastClass : FrameType → BroadcastClass
  | .tx64 | .tx16 | .transmitRequest | .explicitAddressing | .remoteAtCommand => .address
  | .rx64 | .rx16 | .rx64Io | .rx16Io | .receivePacket | .explicitRxIndicator
  | .ioDataSampleRx => .options
  | .atCommand | .atCommandQueue | .atCommandResponse | .txStatus | .modemStatus
  | .transmitStatus | .remoteAtCommandResponse | .deviceRequest | .sendDataRequest => .never

/-- The role column of R100. -/
inductive Role where
  | request
  | response
  | indication
deriving DecidableEq, Repr

/-- The role of a type (R100). -/
def role : FrameType → Role
  | .tx64 | .tx16 | .atCommand | .atCommandQueue | .transmitRequest | .explicitAddressing
  | .remoteAtCommand | .sendDataRequest => .request
  | .atCommandResponse | .txStatus | .transmitStatus | .remoteAtCommandResponse => .response
  | .rx64 | .rx16 | .rx64Io | .rx16Io | .modemStatus | .receivePacket | .explicitRxIndicator
  | .ioDataSampleRx | .deviceRequest => .indication

/-- `RESP_FAMILY` on rows (R290). -/
def respFamily : FrameType → Option FrameType
  | .atCommand | .atCommandQueue => some .atCommandResponse
  | .remoteAtCommand => some .remoteAtCommandResponse
  | .transmitRequest | .explicitAddressing => some .transmitStatus
  | .tx64 | .tx16 => some .txStatus
  | .rx64 | .rx16 | .rx64Io | .rx16Io | .atCommandResponse | .txStatus | .modemStatus
  | .transmitStatus | .receivePacket | .explicitRxIndicator | .ioDataSampleRx
  | .remoteAtCommandResponse | .deviceRequest | .sendDataRequest => none

/-- `RESP_FAMILY(req_type)` on the stored frame-type byte (R290). -/
def respFamilyOf (c : Cfg) (reqType : Byte) : Option FrameType :=
  (ftLookup c reqType).bind respFamily

/-- The row of a packet: its discriminant (R206). -/
def packetType : Packet → FrameType
  | .tx64 _ => .tx64
  | .tx16 _ => .tx16
  | .atCommand _ => .atCommand
  | .atCommandQueue _ => .atCommandQueue
  | .transmitRequest _ => .transmitRequest
  | .explicitAddressing _ => .explicitAddressing
  | .remoteAtCommand _ => .remoteAtCommand
  | .rx64 _ => .rx64
  | .rx16 _ => .rx16
  | .rx64Io _ => .rx64Io
  | .rx16Io _ => .rx16Io
  | .atCommandResponse _ => .atCommandResponse
  | .txStatus _ => .txStatus
  | .modemStatus _ => .modemStatus
  | .transmitStatus _ => .transmitStatus
  | .receivePacket _ => .receivePacket
  | .explicitRxIndicator _ => .explicitRxIndicator
  | .ioDataSampleRx _ => .ioDataSampleRx
  | .remoteAtCommandResponse _ => .remoteAtCommandResponse
  | .deviceRequest _ => .deviceRequest
  | .sendDataRequest _ => .sendDataRequest

/-- `frame_type` of a packet (R206). -/
def packetCode (c : Cfg) (p : Packet) : Byte := frameCode c (packetType p)

/-- `frame_id` of a packet (R206): `some` exactly for the rows with `needs_frame_id`. -/
def packetFrameId : Packet → Option Byte
  | .tx64 f => some f.frameId
  | .tx16 f => some f.frameId
  | .atCommand f => some f.frameId
  | .atCommandQueue f => some f.frameId
  | .transmitRequest f => some f.frameId
  | .explicitAddressing f => some f.frameId
  | .remoteAtCommand f => some f.frameId
  | .rx64 _ => none
  | .rx16 _ => none
  | .rx64Io _ => none
  | .rx16Io _ => none
  | .atCommandResponse f => some f.frameId
  | .txStatus f => some f.frameId
  | .modemStatus _ => none
  | .transmitStatus f => some f.frameId
  | .receivePacket _ => none
  | .explicitRxIndicator _ => none
  | .ioDataSampleRx _ => none
  | .remoteAtCommandResponse f => some f.frameId
  | .deviceRequest _ => none
  | .sendDataRequest f => some f.frameId

/-- The frame type an IO sample block comes from (R260). -/
def ioFrameType : IoType → FrameType
  | .ioDataSampleRx => .ioDataSampleRx
  | .rx64Io => .rx64Io
  | .rx16Io => .rx16Io

/-- `IOS_NSAMP_PREFIX(T)` (R271). -/
def nsampPresent (c : Cfg) : IoType → Bool
  | .ioDataSampleRx => c.nsampIo
  | .rx64Io => c.nsampRx64
  | .rx16Io => c.nsampRx16

end Sys2Proof.Machine
end

