-- ==== Sys2Proof/Machine/Flags.lean ====
section
/-! DEFINITION. Every flag the spec computes: the special-byte test and `RX.esc` (R145, R163), the
checksum verdict (R142), the broadcast flag (R212), and the presence bits of an IO sample block
(R122). -/

namespace Sys2Proof.Machine

/-- The special bytes of R145. -/
def isSpecial (b : Byte) : Bool := b == 0x7E || b == 0x7D || b == 0x11 || b == 0x13

/-- One iteration of `UNESCAPE_FROM` (R148): the new pending flag and the logical byte, if any. -/
def unescapeByte (e : Bool) (b : Byte) : Bool × Option Byte :=
  if e then (false, some (b ^^^ 0x20))
  else if b = 0x7D then (true, none)
  else (false, some b)

/-- `unescape_stage` (R163): the new `RX.esc` and the logical byte, if any. In plain mode it is the
identity. -/
def unescapeStage (escaped esc : Bool) (b : Byte) : Bool × Option Byte :=
  if escaped then unescapeByte esc b else (esc, some b)

/-- The verdict of R142 on the running sum of R26. -/
def checksumOk (sum c : Byte) : Bool := sum + c == 0xFF

/-- `(options and 0x06) != 0` (R212, R123). -/
def optionsBroadcast (options : Byte) : Bool := options &&& 0x06 != 0

/-- `is_broadcast` of a packet (R212), each row by its class and the fields it has. -/
def isBroadcast (c : Cfg) : Packet → Bool
  | .tx64 f => f.addr64 == addr64Broadcast
  | .tx16 f => f.addr16 == c.addr16Broadcast
  | .atCommand _ => false
  | .atCommandQueue _ => false
  | .transmitRequest f => f.addr64 == addr64Broadcast || f.addr16 == c.addr16Broadcast
  | .explicitAddressing f => f.addr64 == addr64Broadcast || f.addr16 == c.addr16Broadcast
  | .remoteAtCommand f => f.addr64 == addr64Broadcast || f.addr16 == c.addr16Broadcast
  | .rx64 f => optionsBroadcast f.options
  | .rx16 f => optionsBroadcast f.options
  | .rx64Io f => optionsBroadcast f.options
  | .rx16Io f => optionsBroadcast f.options
  | .atCommandResponse _ => false
  | .txStatus _ => false
  | .modemStatus _ => false
  | .transmitStatus _ => false
  | .receivePacket f => optionsBroadcast f.options
  | .explicitRxIndicator f => optionsBroadcast f.options
  | .ioDataSampleRx f => optionsBroadcast f.options
  | .remoteAtCommandResponse _ => false
  | .deviceRequest _ => false
  | .sendDataRequest _ => false

/-- `D` of R122, in bytes: 2 when a digital-value field is present. -/
def digitalSize (dm : U16) : Nat := if dm ≠ 0 then 2 else 0

/-- The number of set bits of `analog_mask` below bit `i`: the place of line `i` among the analog
values (R122, R265). -/
def analogRank (am : Byte) (i : Nat) : Nat :=
  ((List.range i).filter fun j => am.getLsbD j).length

/-- `n` of R122: the number of set bits among bits 0 to 5. -/
def analogCount (am : Byte) : Nat := analogRank am 6

/-- `V` of R122: bit 7 of `analog_mask`. -/
def powerPresent (am : Byte) : Bool := am.getLsbD 7

/-- `s` of R122, in bytes. -/
def nsampSize (present : Bool) : Nat := if present then 1 else 0

/-- `s + 3 + 2D + 2n + 2V` (R122, R269): the bytes the masks call for. -/
def blockNeed (present : Bool) (dm : U16) (am : Byte) : Nat :=
  nsampSize present + 3 + digitalSize dm + 2 * analogCount am + (if powerPresent am then 2 else 0)

end Sys2Proof.Machine
end

