-- ==== Sys2Proof/Machine/Operands.lean ====
section
/-! DEFINITION. Operand assembly: how the fields of R97 are read from and written to byte sequences
(R13 `be`, `MemRead`, `MemWrite`; R62 to R64; R98). -/

namespace Sys2Proof.Machine

/-- Big-endian assembly of a whole sequence (R13). -/
def beOf (bs : List Byte) : Nat := bs.foldl (fun acc b => acc * 256 + b.toNat) 0

/-- `be(s, i, n)` (R13). -/
def be (s : List Byte) (i n : Nat) : Nat := beOf ((s.drop i).take n)

/-- `s[i]` (R13); every rule checks the length first, so the default is never seen. -/
def byteAt (s : List Byte) (i : Nat) : Byte := s.getD i 0

/-- `u16` and `addr16` (R97). -/
def u16At (s : List Byte) (i : Nat) : U16 := BitVec.ofNat 16 (be s i 2)

/-- `addr64` (R97). -/
def addr64At (s : List Byte) (i : Nat) : U64 := BitVec.ofNat 64 (be s i 8)

/-- `ascii2` (R97): two bytes kept in wire order. -/
def ascii2At (s : List Byte) (i : Nat) : Byte × Byte := (byteAt s i, byteAt s (i + 1))

/-- `bytes(n)` (R97). -/
def bytesAt (s : List Byte) (i n : Nat) : List Byte := (s.drop i).take n

/-- `trailing(p, o)` (R98): absent when nothing is left, never `Some` of an empty sequence. -/
def trailing (s : List Byte) (o : Nat) : Option (List Byte) :=
  if s.length ≤ o then none else some (s.drop o)

/-- `bytesN(v)` (R238, R13 `MemWrite`): the `n`-byte big-endian form. -/
def bytesN : Nat → Nat → List Byte
  | 0, _ => []
  | n + 1, v => BitVec.ofNat 8 (v / 256 ^ n) :: bytesN n v

/-- `bytes2(v)`. -/
def bytes2 (v : U16) : List Byte := bytesN 2 v.toNat

/-- `bytes8(v)`. -/
def bytes8 (v : U64) : List Byte := bytesN 8 v.toNat

/-- The bytes of an optional trailing field on encode: `None` adds nothing (R98, R238). -/
def trailingBytes (t : Option (List Byte)) : List Byte := t.getD []

end Sys2Proof.Machine
end

