-- ==== Sys2Proof/Machine/ByteCodec.lean ====
section
/-! DEFINITION. The byte-level primitives: CHECKSUM, ESCAPE, UNESCAPE (R140 to R151) and the transmit
envelope `wrap` (R190). -/

namespace Sys2Proof.Machine

/-- The sum of a payload modulo 256 (R140, R141). -/
def byteSum (p : List Byte) : Byte := p.foldl (· + ·) 0

/-- `CHECKSUM(p)` (R140). -/
def checksum (p : List Byte) : Byte := 0xFF - byteSum p

/-- The raw bytes of one logical byte of the stuffed region (R94, R146). -/
def escapeByte (b : Byte) : List Byte := if isSpecial b then [0x7D, b ^^^ 0x20] else [b]

/-- `ESCAPE(r)` (R146). -/
def escape (r : List Byte) : List Byte := r.flatMap escapeByte

/-- `UNESCAPE_FROM(e, w)` (R148): the logical bytes and the pending flag on exit. -/
def unescapeFrom : Bool → List Byte → List Byte × Bool
  | e, [] => ([], e)
  | e, b :: w =>
    let r := unescapeByte e b
    let rest := unescapeFrom r.1 w
    (r.2.toList ++ rest.1, rest.2)

/-- The stuffed region as it goes on the wire (R94). -/
def stuff (escaped : Bool) (body : List Byte) : List Byte := if escaped then escape body else body

/-- The raw bytes of a frame with payload `p` and checksum byte `c` (R90, R94). -/
def rawFrame (escaped : Bool) (p : List Byte) (c : Byte) : List Byte :=
  0x7E :: stuff escaped (bytesN 2 p.length ++ p ++ [c])

/-- `wrap(p)` (R190); requires `len(p) <= 65535`. -/
def wrap (escaped : Bool) (p : List Byte) : List Byte := rawFrame escaped p (checksum p)

end Sys2Proof.Machine
end

