-- ==== Sys2Proof/WellFormed.lean ====
section
/-! DEFINITION. Well-formedness: which operands an opcode-table row can carry. Each check is named
and cites its rule. -/

namespace Sys2Proof

open Sys2Proof.Machine

/-- A noise byte is not the delimiter (R162). -/
def noiseByteOk (b : Byte) : Bool := b != 0x7E

/-- A frame's payload fits the 16-bit length field (R91). -/
def framePayloadOk (p : List Byte) : Bool := decide (p.length ≤ maxLen)

/-- A trailing region is absent or non-empty (R98), and with the `fixed` bytes before it the payload
fits the length field (R91). -/
def trailingOk (fixed : Nat) : Option (List Byte) → Bool
  | none => decide (fixed ≤ maxLen)
  | some t => !t.isEmpty && decide (fixed + t.length ≤ maxLen)

/-- A sequence sent with a one-byte length (R240). -/
def embeddedOk (s : List Byte) : Bool := decide (s.length ≤ 255)

/-- What a packet record of any row satisfies when a decode produced it (R98, R206, R233, R234). -/
def packetOk : Packet → Bool
  | .tx64 f => trailingOk 11 f.rfData
  | .tx16 f => trailingOk 5 f.rfData
  | .atCommand f => trailingOk 4 f.parameter
  | .atCommandQueue f => trailingOk 4 f.parameter
  | .transmitRequest f => trailingOk 14 f.rfData
  | .explicitAddressing f => trailingOk 20 f.rfData
  | .remoteAtCommand f => trailingOk 15 f.parameter
  | .rx64 f => trailingOk 11 f.rfData
  | .rx16 f => trailingOk 5 f.rfData
  | .rx64Io f => trailingOk 11 f.rfData
  | .rx16Io f => trailingOk 5 f.rfData
  | .atCommandResponse f => trailingOk 5 f.value
  | .txStatus _ => true
  | .modemStatus _ => true
  | .transmitStatus _ => true
  | .receivePacket f => trailingOk 12 f.rfData
  | .explicitRxIndicator f => trailingOk 18 f.rfData
  | .ioDataSampleRx f => trailingOk 12 f.rfData
  | .remoteAtCommandResponse f => trailingOk 15 f.value
  | .deviceRequest f => embeddedOk f.target && trailingOk (5 + f.target.length) f.data
  | .sendDataRequest f =>
    embeddedOk f.path && embeddedOk f.contentType &&
      trailingOk (6 + f.path.length + f.contentType.length) f.fileData

/-- The fields of an IO sample block are present exactly as its masks and the prefix parameter call
for (R122), and the block has at least 5 bytes (R261). -/
def blockOk (c : Cfg) (t : IoType) (k : IosBlock) : Bool :=
  k.nsamples.isSome == nsampPresent c t &&
  k.digitalValues.isSome == decide (k.digitalMask ≠ 0) &&
  k.analogValues.length == analogCount k.analogMask &&
  k.power.isSome == powerPresent k.analogMask &&
  decide (5 ≤ blockNeed (nsampPresent c t) k.digitalMask k.analogMask + k.excess.length)

/-- The maps of a sample are defined exactly where its masks say (R262). -/
def sampleOk (s : IoSample) : Bool :=
  ((List.finRange 16).all fun i => s.digital[i].isSome == s.digitalMask.getLsbD i) &&
  ((List.finRange 6).all fun i => s.analog[i].isSome == s.analogMask.getLsbD i) &&
  s.power.isSome == powerPresent s.analogMask

/-- A checksum operand is at most as long as a payload (R140). -/
def checksumOperandOk (p : List Byte) : Bool := decide (p.length ≤ maxLen)

/-- `Incomplete` records a length below the least acceptable one (R209). -/
def incompleteOk (expectedMin actual : Nat) : Bool := decide (actual < expectedMin)

/-- `WrongFrameType` records two different bytes (R210). -/
def wrongTypeOk (expected actual : Byte) : Bool := expected != actual

/-- `UnknownFrameType` records a byte outside the table (R208). -/
def unknownTypeOk (c : Cfg) (b : Byte) : Bool := (ftLookup c b).isNone

/-- `OutOfRange` records a value outside the field's stated range (R240, R193); for a trailing field
the spec states neither value nor range (entry 7). -/
def outOfRangeOk (field : FieldName) (value lo hi : Nat) : Bool :=
  match field with
  | .rssi => lo == 0 && hi == 100 && decide (100 < value)
  | .target | .path | .contentType => lo == 0 && hi == 255 && decide (255 < value)
  | .length => lo == 0 && hi == maxLen && decide (maxLen < value)
  | .rfData | .parameter | .value | .data | .fileData => true

/-- Well-formedness of an instruction under a configuration. -/
def wellFormed (c : Cfg) : Instr → Bool
  | .rawDelimiter => true
  | .rawNoise b => noiseByteOk b
  | .rawEscapeMarker => true
  | .rawEscapedSecond _ => true
  | .rawLiteral _ => true
  | .escPair7E => true
  | .escPair7D => true
  | .escPair11 => true
  | .escPair13 => true
  | .frame p _ => framePayloadOk p
  | .tx64 f => packetOk (.tx64 f)
  | .tx16 f => packetOk (.tx16 f)
  | .atCommand f => packetOk (.atCommand f)
  | .atCommandQueue f => packetOk (.atCommandQueue f)
  | .transmitRequest f => packetOk (.transmitRequest f)
  | .explicitAddressing f => packetOk (.explicitAddressing f)
  | .remoteAtCommand f => packetOk (.remoteAtCommand f)
  | .rx64 f => packetOk (.rx64 f)
  | .rx16 f => packetOk (.rx16 f)
  | .rx64Io f => packetOk (.rx64Io f)
  | .rx16Io f => packetOk (.rx16Io f)
  | .atCommandResponse f => packetOk (.atCommandResponse f)
  | .txStatus f => packetOk (.txStatus f)
  | .modemStatus f => packetOk (.modemStatus f)
  | .transmitStatus f => packetOk (.transmitStatus f)
  | .receivePacket f => packetOk (.receivePacket f)
  | .explicitRxIndicator f => packetOk (.explicitRxIndicator f)
  | .ioDataSampleRx f => packetOk (.ioDataSampleRx f)
  | .remoteAtCommandResponse f => packetOk (.remoteAtCommandResponse f)
  | .deviceRequest f => packetOk (.deviceRequest f)
  | .sendDataRequest f => packetOk (.sendDataRequest f)
  | .iosBlock t k => blockOk c t k
  | .rxByte _ => true
  | .txFrame _ => true
  | .checksum p => checksumOperandOk p
  | .escape _ => true
  | .unescape _ _ => true
  | .decodeFrame _ => true
  | .decodeAs _ _ => true
  | .encode _ => true
  | .iosDecode _ _ => true
  | .iosPower s => sampleOk s
  | .send _ => true
  | .sendAndWait _ => true
  | .deliver p => packetOk p
  | .corrTimeout _ => true
  | .corrCancel _ => true
  | .lqPop => true
  | .reset => true
  | .close => true
  | .checksumError => true
  | .nullPayload _ => true
  | .incomplete m n _ => incompleteOk m n
  | .wrongFrameType e a => wrongTypeOk e a
  | .unknownFrameType b _ => unknownTypeOk c b
  | .outOfRange f v lo hi _ => outOfRangeOk f v lo hi
  | .timeout _ => true
  | .connectionClosed _ => true
  | .noPendingRequest => true
  | .frameIdInUse _ => true
  | .operationNotSupported => true

end Sys2Proof
end

