-- ==== Sys2Proof/Decode.lean ====
section
/-! DEFINITION. The decoder, total on every item and rejecting by name, and after it the encoder:
payloads by the frame-type table (R205 to R236), raw bytes by the classification of R95, escape pairs
(R94), whole frames (R90) and IO sample blocks (R122). -/

namespace Sys2Proof

open Sys2Proof.Machine

/-! ## Payloads: the per-type codecs -/

/-- R214, layout R101. -/
def decodeTx64 (p : List Byte) : Tx64 :=
  { frameId := byteAt p 1, addr64 := addr64At p 2, options := byteAt p 10,
    rfData := trailing p 11 }

/-- R215, layout R102. -/
def decodeTx16 (p : List Byte) : Tx16 :=
  { frameId := byteAt p 1, addr16 := u16At p 2, options := byteAt p 4, rfData := trailing p 5 }

/-- R216 and R217, layouts R103 and R104. -/
def decodeAtCommand (p : List Byte) : AtCommand :=
  { frameId := byteAt p 1, command := ascii2At p 2, parameter := trailing p 4 }

/-- R218, layout R105. -/
def decodeTransmitRequest (p : List Byte) : TransmitRequest :=
  { frameId := byteAt p 1, addr64 := addr64At p 2, addr16 := u16At p 10,
    bcastRadius := byteAt p 12, options := byteAt p 13, rfData := trailing p 14 }

/-- R219, layout R106. -/
def decodeExplicitAddressing (p : List Byte) : ExplicitAddressing :=
  { frameId := byteAt p 1, addr64 := addr64At p 2, addr16 := u16At p 10,
    srcEp := byteAt p 12, dstEp := byteAt p 13, cluster := u16At p 14, profile := u16At p 16,
    bcastRadius := byteAt p 18, options := byteAt p 19, rfData := trailing p 20 }

/-- R220, layout R107. -/
def decodeRemoteAtCommand (p : List Byte) : RemoteAtCommand :=
  { frameId := byteAt p 1, addr64 := addr64At p 2, addr16 := u16At p 10,
    options := byteAt p 12, command := ascii2At p 13, parameter := trailing p 15 }

/-- R221 and R223, layouts R108 and R110. -/
def decodeRx64 (p : List Byte) : Rx64 :=
  { addr64 := addr64At p 1, rssi := byteAt p 9, options := byteAt p 10, rfData := trailing p 11 }

/-- R222 and R224, layouts R109 and R111. -/
def decodeRx16 (p : List Byte) : Rx16 :=
  { addr16 := u16At p 1, rssi := byteAt p 3, options := byteAt p 4, rfData := trailing p 5 }

/-- R225, layout R112. -/
def decodeAtCommandResponse (p : List Byte) : AtCommandResponse :=
  { frameId := byteAt p 1, command := ascii2At p 2, status := byteAt p 4, value := trailing p 5 }

/-- R226, layout R113; later bytes are ignored (R213). -/
def decodeTxStatus (p : List Byte) : TxStatus :=
  { frameId := byteAt p 1, status := byteAt p 2 }

/-- R227, layout R114; later bytes are ignored (R213). -/
def decodeModemStatus (p : List Byte) : ModemStatus :=
  { status := byteAt p 1 }

/-- R228, layout R115; later bytes are ignored (R213). -/
def decodeTransmitStatus (p : List Byte) : TransmitStatus :=
  { frameId := byteAt p 1, addr16 := u16At p 2, retryCount := byteAt p 4,
    deliveryStatus := byteAt p 5, discoveryStatus := byteAt p 6 }

/-- R229 and R231, layouts R116 and R118. -/
def decodeReceivePacket (p : List Byte) : ReceivePacket :=
  { addr64 := addr64At p 1, addr16 := u16At p 9, options := byteAt p 11, rfData := trailing p 12 }

/-- R230, layout R117. -/
def decodeExplicitRxIndicator (p : List Byte) : ExplicitRxIndicator :=
  { addr64 := addr64At p 1, addr16 := u16At p 9, srcEp := byteAt p 11, dstEp := byteAt p 12,
    cluster := u16At p 13, profile := u16At p 15, options := byteAt p 17,
    rfData := trailing p 18 }

/-- R232, layout R119. -/
def decodeRemoteAtCommandResponse (p : List Byte) : RemoteAtCommandResponse :=
  { frameId := byteAt p 1, addr64 := addr64At p 2, addr16 := u16At p 10,
    command := ascii2At p 12, status := byteAt p 14, value := trailing p 15 }

/-- R233 and R235, layout R120: `target_len` splits the bytes and must fit. -/
def decodeDeviceRequest (p : List Byte) : Except ErrorEvent DeviceRequest :=
  let n := (byteAt p 4).toNat
  if p.length < 5 + n then .error (.incomplete (5 + n) p.length)
  else .ok { requestId := byteAt p 1, transport := byteAt p 2, flags := byteAt p 3,
             target := bytesAt p 5 n, data := trailing p (5 + n) }

/-- R234 and R236, layout R121: first `path_len`, then `content_type_len`. -/
def decodeSendDataRequest (p : List Byte) : Except ErrorEvent SendDataRequest :=
  let n := (byteAt p 2).toNat
  if p.length < 6 + n then .error (.incomplete (6 + n) p.length)
  else
    let m := (byteAt p (3 + n)).toNat
    if p.length < 6 + n + m then .error (.incomplete (6 + n + m) p.length)
    else .ok { frameId := byteAt p 1, path := bytesAt p 3 n, contentType := bytesAt p (4 + n) m,
               transport := byteAt p (4 + n + m), options := byteAt p (5 + n + m),
               fileData := trailing p (6 + n + m) }

/-- "the packet built by the layout rule of T" (R210): runs after the three checks of R210. -/
def decodeBody (t : FrameType) (p : List Byte) : Except ErrorEvent Packet :=
  match t with
  | .tx64 => .ok (.tx64 (decodeTx64 p))
  | .tx16 => .ok (.tx16 (decodeTx16 p))
  | .atCommand => .ok (.atCommand (decodeAtCommand p))
  | .atCommandQueue => .ok (.atCommandQueue (decodeAtCommand p))
  | .transmitRequest => .ok (.transmitRequest (decodeTransmitRequest p))
  | .explicitAddressing => .ok (.explicitAddressing (decodeExplicitAddressing p))
  | .remoteAtCommand => .ok (.remoteAtCommand (decodeRemoteAtCommand p))
  | .rx64 => .ok (.rx64 (decodeRx64 p))
  | .rx16 => .ok (.rx16 (decodeRx16 p))
  | .rx64Io => .ok (.rx64Io (decodeRx64 p))
  | .rx16Io => .ok (.rx16Io (decodeRx16 p))
  | .atCommandResponse => .ok (.atCommandResponse (decodeAtCommandResponse p))
  | .txStatus => .ok (.txStatus (decodeTxStatus p))
  | .modemStatus => .ok (.modemStatus (decodeModemStatus p))
  | .transmitStatus => .ok (.transmitStatus (decodeTransmitStatus p))
  | .receivePacket => .ok (.receivePacket (decodeReceivePacket p))
  | .explicitRxIndicator => .ok (.explicitRxIndicator (decodeExplicitRxIndicator p))
  | .ioDataSampleRx => .ok (.ioDataSampleRx (decodeReceivePacket p))
  | .remoteAtCommandResponse => .ok (.remoteAtCommandResponse (decodeRemoteAtCommandResponse p))
  | .deviceRequest => (decodeDeviceRequest p).map .deviceRequest
  | .sendDataRequest => (decodeSendDataRequest p).map .sendDataRequest

/-- `DECODE_AS(T, p)` (R210): the checks in the order of R331. -/
def decodeAs (c : Cfg) (t : FrameType) (p : List Byte) : Except ErrorEvent Packet :=
  if p.isEmpty then .error .nullPayload
  else if p.length < minLength t then .error (.incomplete (minLength t) p.length)
  else if byteAt p 0 ≠ frameCode c t then .error (.wrongFrameType (frameCode c t) (byteAt p 0))
  else decodeBody t p

/-- `DECODE_FRAME(p)` (R205). -/
def decodeFrame (c : Cfg) (p : List Byte) : Except ErrorEvent Packet :=
  match p with
  | [] => .error .nullPayload
  | b :: _ =>
    match ftLookup c b with
    | none => .error (.unknownFrameType b)
    | some t => decodeAs c t p

/-! ## Payloads: encoding -/

/-- `ENCODE(P)` without its range checks (R238): the body after the frame-type byte. -/
def encodeBody : Packet → List Byte
  | .tx64 f => [f.frameId] ++ bytes8 f.addr64 ++ [f.options] ++ trailingBytes f.rfData
  | .tx16 f => [f.frameId] ++ bytes2 f.addr16 ++ [f.options] ++ trailingBytes f.rfData
  | .atCommand f => [f.frameId, f.command.1, f.command.2] ++ trailingBytes f.parameter
  | .atCommandQueue f => [f.frameId, f.command.1, f.command.2] ++ trailingBytes f.parameter
  | .transmitRequest f =>
    [f.frameId] ++ bytes8 f.addr64 ++ bytes2 f.addr16 ++ [f.bcastRadius, f.options] ++
      trailingBytes f.rfData
  | .explicitAddressing f =>
    [f.frameId] ++ bytes8 f.addr64 ++ bytes2 f.addr16 ++ [f.srcEp, f.dstEp] ++
      bytes2 f.cluster ++ bytes2 f.profile ++ [f.bcastRadius, f.options] ++
      trailingBytes f.rfData
  | .remoteAtCommand f =>
    [f.frameId] ++ bytes8 f.addr64 ++ bytes2 f.addr16 ++
      [f.options, f.command.1, f.command.2] ++ trailingBytes f.parameter
  | .rx64 f => bytes8 f.addr64 ++ [f.rssi, f.options] ++ trailingBytes f.rfData
  | .rx16 f => bytes2 f.addr16 ++ [f.rssi, f.options] ++ trailingBytes f.rfData
  | .rx64Io f => bytes8 f.addr64 ++ [f.rssi, f.options] ++ trailingBytes f.rfData
  | .rx16Io f => bytes2 f.addr16 ++ [f.rssi, f.options] ++ trailingBytes f.rfData
  | .atCommandResponse f =>
    [f.frameId, f.command.1, f.command.2, f.status] ++ trailingBytes f.value
  | .txStatus f => [f.frameId, f.status]
  | .modemStatus f => [f.status]
  | .transmitStatus f =>
    [f.frameId] ++ bytes2 f.addr16 ++ [f.retryCount, f.deliveryStatus, f.discoveryStatus]
  | .receivePacket f =>
    bytes8 f.addr64 ++ bytes2 f.addr16 ++ [f.options] ++ trailingBytes f.rfData
  | .explicitRxIndicator f =>
    bytes8 f.addr64 ++ bytes2 f.addr16 ++ [f.srcEp, f.dstEp] ++ bytes2 f.cluster ++
      bytes2 f.profile ++ [f.options] ++ trailingBytes f.rfData
  | .ioDataSampleRx f =>
    bytes8 f.addr64 ++ bytes2 f.addr16 ++ [f.options] ++ trailingBytes f.rfData
  | .remoteAtCommandResponse f =>
    [f.frameId] ++ bytes8 f.addr64 ++ bytes2 f.addr16 ++
      [f.command.1, f.command.2, f.status] ++ trailingBytes f.value
  | .deviceRequest f =>
    [f.requestId, f.transport, f.flags, BitVec.ofNat 8 f.target.length] ++ f.target ++
      trailingBytes f.data
  | .sendDataRequest f =>
    [f.frameId, BitVec.ofNat 8 f.path.length] ++ f.path ++
      [BitVec.ofNat 8 f.contentType.length] ++ f.contentType ++ [f.transport, f.options] ++
      trailingBytes f.fileData

/-- `payload(P)`, the source's `encode_with_type_byte` (R239). -/
def payloadOf (c : Cfg) (p : Packet) : List Byte := packetCode c p :: encodeBody p

/-! ## IO sample blocks (R122, R263) -/

/-- The masks and values of a block, read in the order of R263; `none` when the block is shorter than
5 bytes (R261) or than its masks call for (R269). -/
def parseBlock (present : Bool) (b : List Byte) : Option IosBlock :=
  let s := nsampSize present
  if b.length < 5 then none
  else
    let dm := u16At b s
    let am := byteAt b (s + 2)
    if b.length < blockNeed present dm am then none
    else
      let a := s + 3 + digitalSize dm
      some { nsamples := if present then some (byteAt b 0) else none
             digitalMask := dm
             analogMask := am
             digitalValues := if dm ≠ 0 then some (u16At b (s + 3)) else none
             analogValues := (List.range (analogCount am)).map fun k => u16At b (a + 2 * k)
             power := if powerPresent am then some (u16At b (a + 2 * analogCount am)) else none
             excess := b.drop (blockNeed present dm am) }

/-- The bytes of a block (R122). -/
def blockBytes (k : IosBlock) : List Byte :=
  k.nsamples.toList ++ bytes2 k.digitalMask ++ [k.analogMask] ++
    (k.digitalValues.toList.flatMap bytes2) ++ k.analogValues.flatMap bytes2 ++
    (k.power.toList.flatMap bytes2) ++ k.excess

/-- The sample of a block (R263): digital values masked (R264), analog values to the set bits in
increasing order (R265), the power value in sequence (R267). -/
def blockSample (k : IosBlock) : IoSample :=
  { digitalMask := k.digitalMask
    analogMask := k.analogMask
    digital := Vector.ofFn fun i : Fin 16 =>
      if k.digitalMask.getLsbD i then
        k.digitalValues.map fun dv => if dv.getLsbD i then Level.high else Level.low
      else none
    analog := Vector.ofFn fun i : Fin 6 =>
      if k.analogMask.getLsbD i then k.analogValues[analogRank k.analogMask i]? else none
    power := k.power }

/-- `IOS_DECODE(T, b)` (R263). -/
def iosDecode (c : Cfg) (t : IoType) (b : List Byte) : Option IoSample :=
  (parseBlock (nsampPresent c t) b).map blockSample

/-- `io_sample` of a packet (R206, R260): only three rows are offered to the codec, and only when
the trailing region is present. -/
def packetIoSample (c : Cfg) : Packet → Option IoSample
  | .ioDataSampleRx f => f.rfData.bind (iosDecode c .ioDataSampleRx)
  | .rx64Io f => f.rfData.bind (iosDecode c .rx64Io)
  | .rx16Io f => f.rfData.bind (iosDecode c .rx16Io)
  | .tx64 _ | .tx16 _ | .atCommand _ | .atCommandQueue _ | .transmitRequest _
  | .explicitAddressing _ | .remoteAtCommand _ | .rx64 _ | .rx16 _ | .atCommandResponse _
  | .txStatus _ | .modemStatus _ | .transmitStatus _ | .receivePacket _ | .explicitRxIndicator _
  | .remoteAtCommandResponse _ | .deviceRequest _ | .sendDataRequest _ => none

/-- A packet with its computed fields (R206). -/
def decodedOf (c : Cfg) (p : Packet) : Decoded :=
  { packet := p, isBroadcast := isBroadcast c p, ioSample := packetIoSample c p }

/-! ## Raw bytes, frames, escape pairs -/

/-- What a raw byte's class depends on (R95), and the configuration. -/
structure Ctx where
  cfg : Cfg
  rxState : RxState
  esc : Bool
deriving DecidableEq, Repr

/-- The class of a raw byte on `RX_IN` (R95). -/
def classify (x : Ctx) (b : Byte) : Instr :=
  match x.rxState with
  | .awaitingDelimiter => if b = 0x7E then .rawDelimiter else .rawNoise b
  | .readingLength | .readingPayload | .readingChecksum =>
    if x.cfg.escaped then
      if x.esc then .rawEscapedSecond b
      else if b = 0x7D then .rawEscapeMarker else .rawLiteral b
    else .rawLiteral b

/-- A chunk that is one whole frame of R90, in the raw form of R94: its payload and checksum byte. -/
def parseFrame (escaped : Bool) (w : List Byte) : Option (List Byte × Byte) :=
  let u := if escaped then (unescapeFrom false (w.drop 1)).1 else w.drop 1
  let n := be u 0 2
  let r := (bytesAt u 2 n, byteAt u (2 + n))
  if rawFrame escaped r.1 r.2 = w then some r else none

/-- The pair of a special byte (R94, R146); any other byte stands for itself, as ESCAPE leaves it. -/
def stuffedInstr (b : Byte) : Instr :=
  if b = 0x7E then .escPair7E
  else if b = 0x7D then .escPair7D
  else if b = 0x11 then .escPair11
  else if b = 0x13 then .escPair13
  else .escape [b]

/-- The frame-type row of a decoded payload. -/
def packetInstr : Packet → Instr
  | .tx64 f => .tx64 f
  | .tx16 f => .tx16 f
  | .atCommand f => .atCommand f
  | .atCommandQueue f => .atCommandQueue f
  | .transmitRequest f => .transmitRequest f
  | .explicitAddressing f => .explicitAddressing f
  | .remoteAtCommand f => .remoteAtCommand f
  | .rx64 f => .rx64 f
  | .rx16 f => .rx16 f
  | .rx64Io f => .rx64Io f
  | .rx16Io f => .rx16Io f
  | .atCommandResponse f => .atCommandResponse f
  | .txStatus f => .txStatus f
  | .modemStatus f => .modemStatus f
  | .transmitStatus f => .transmitStatus f
  | .receivePacket f => .receivePacket f
  | .explicitRxIndicator f => .explicitRxIndicator f
  | .ioDataSampleRx f => .ioDataSampleRx f
  | .remoteAtCommandResponse f => .remoteAtCommandResponse f
  | .deviceRequest f => .deviceRequest f
  | .sendDataRequest f => .sendDataRequest f

/-- The operation an input event issues (R10). -/
def eventInstr : Event → Instr
  | .rxByte b => .rxByte b
  | .txFrame p => .txFrame p
  | .send p => .send p
  | .sendAndWait p => .sendAndWait p
  | .decodeFrame p => .decodeFrame p
  | .decodeAs t p => .decodeAs t p
  | .encode p => .encode p
  | .iosDecode t b => .iosDecode t b
  | .iosPower s => .iosPower s
  | .checksum p => .checksum p
  | .escape r => .escape r
  | .unescape e w => .unescape e w
  | .corrTimeout f => .corrTimeout f
  | .corrCancel f => .corrCancel f
  | .reset => .reset
  | .close => .close
  | .lqPop => .lqPop

/-! ## The decoder -/

/-- Why an item names no row of the table. Each has the effect the spec gives it
(`Machine.rejectItem`). -/
inductive Reject where
  /-- A payload the dispatcher rejects (R205, R209, R210). -/
  | decodeError (e : ErrorEvent)
  /-- A chunk that is not one whole frame: its bytes are received one by one (R68). -/
  | notOneFrame (bs : List Byte)
  /-- A block that is no IO sample (R261, R269). -/
  | noSample
deriving DecidableEq, Repr

/-- The decoder: which row an item is. -/
def decode (x : Ctx) : Item → Except Reject Instr
  | .rxIn b => .ok (classify x b)
  | .rxChunk w =>
    match parseFrame x.cfg.escaped w with
    | some r => .ok (.frame r.1 r.2)
    | none => .error (.notOneFrame w)
  | .stuffed b => .ok (stuffedInstr b)
  | .payload p =>
    match decodeFrame x.cfg p with
    | .ok pkt => .ok (packetInstr pkt)
    | .error e => .error (.decodeError e)
  | .block t b =>
    match parseBlock (nsampPresent x.cfg t) b with
    | some k => .ok (.iosBlock t k)
    | none => .error .noSample
  | .event e => .ok (eventInstr e)

/-! ## The encoder -/

/-- The item of an instruction; `none` for the twelve rows that no agent issues: DELIVER, which the
receive path runs itself (R286), and the error events, which are outputs (R317). -/
def encode (c : Cfg) : Instr → Option Item
  | .rawDelimiter => some (.rxIn 0x7E)
  | .rawNoise b => some (.rxIn b)
  | .rawEscapeMarker => some (.rxIn 0x7D)
  | .rawEscapedSecond b => some (.rxIn b)
  | .rawLiteral b => some (.rxIn b)
  | .escPair7E => some (.stuffed 0x7E)
  | .escPair7D => some (.stuffed 0x7D)
  | .escPair11 => some (.stuffed 0x11)
  | .escPair13 => some (.stuffed 0x13)
  | .frame p k => some (.rxChunk (rawFrame c.escaped p k))
  | .tx64 f => some (.payload (payloadOf c (.tx64 f)))
  | .tx16 f => some (.payload (payloadOf c (.tx16 f)))
  | .atCommand f => some (.payload (payloadOf c (.atCommand f)))
  | .atCommandQueue f => some (.payload (payloadOf c (.atCommandQueue f)))
  | .transmitRequest f => some (.payload (payloadOf c (.transmitRequest f)))
  | .explicitAddressing f => some (.payload (payloadOf c (.explicitAddressing f)))
  | .remoteAtCommand f => some (.payload (payloadOf c (.remoteAtCommand f)))
  | .rx64 f => some (.payload (payloadOf c (.rx64 f)))
  | .rx16 f => some (.payload (payloadOf c (.rx16 f)))
  | .rx64Io f => some (.payload (payloadOf c (.rx64Io f)))
  | .rx16Io f => some (.payload (payloadOf c (.rx16Io f)))
  | .atCommandResponse f => some (.payload (payloadOf c (.atCommandResponse f)))
  | .txStatus f => some (.payload (payloadOf c (.txStatus f)))
  | .modemStatus f => some (.payload (payloadOf c (.modemStatus f)))
  | .transmitStatus f => some (.payload (payloadOf c (.transmitStatus f)))
  | .receivePacket f => some (.payload (payloadOf c (.receivePacket f)))
  | .explicitRxIndicator f => some (.payload (payloadOf c (.explicitRxIndicator f)))
  | .ioDataSampleRx f => some (.payload (payloadOf c (.ioDataSampleRx f)))
  | .remoteAtCommandResponse f => some (.payload (payloadOf c (.remoteAtCommandResponse f)))
  | .deviceRequest f => some (.payload (payloadOf c (.deviceRequest f)))
  | .sendDataRequest f => some (.payload (payloadOf c (.sendDataRequest f)))
  | .iosBlock t k => some (.block t (blockBytes k))
  | .rxByte b => some (.event (.rxByte b))
  | .txFrame p => some (.event (.txFrame p))
  | .checksum p => some (.event (.checksum p))
  | .escape r => some (.event (.escape r))
  | .unescape e w => some (.event (.unescape e w))
  | .decodeFrame p => some (.event (.decodeFrame p))
  | .decodeAs t p => some (.event (.decodeAs t p))
  | .encode p => some (.event (.encode p))
  | .iosDecode t b => some (.event (.iosDecode t b))
  | .iosPower s => some (.event (.iosPower s))
  | .send p => some (.event (.send p))
  | .sendAndWait p => some (.event (.sendAndWait p))
  | .deliver _ => none
  | .corrTimeout f => some (.event (.corrTimeout f))
  | .corrCancel f => some (.event (.corrCancel f))
  | .lqPop => some (.event .lqPop)
  | .reset => some (.event .reset)
  | .close => some (.event .close)
  | .checksumError => none
  | .nullPayload _ => none
  | .incomplete _ _ _ => none
  | .wrongFrameType _ _ => none
  | .unknownFrameType _ _ => none
  | .outOfRange _ _ _ _ _ => none
  | .timeout _ => none
  | .connectionClosed _ => none
  | .noPendingRequest => none
  | .frameIdInUse _ => none
  | .operationNotSupported => none

/-- The context in which a stream-byte row is the class of its byte: the condition column of the
opcode table. Every other row can be decoded in every context. -/
def classContext (x : Ctx) : Instr → Bool
  | .rawDelimiter | .rawNoise _ => x.rxState == .awaitingDelimiter
  | .rawEscapeMarker => x.rxState != .awaitingDelimiter && x.cfg.escaped && !x.esc
  | .rawEscapedSecond _ => x.rxState != .awaitingDelimiter && x.cfg.escaped && x.esc
  | .rawLiteral b => x.rxState != .awaitingDelimiter && (!x.cfg.escaped || (!x.esc && b != 0x7D))
  | _ => true

/-! ## Words of the opcode table -/

/-- The bytes of a table word, the first byte in bits 7 to 0. -/
def wordBytes : Nat → Nat → List Byte
  | 0, _ => []
  | n + 1, w => BitVec.ofNat 8 w :: wordBytes n (w / 256)

/-- A payload of the given first bytes, with zero bytes up to the least length of its row: the
operand words of zeros. -/
def padPayload (c : Cfg) (bs : List Byte) : List Byte :=
  match ftLookup c (byteAt bs 0) with
  | none => bs
  | some t => bs ++ List.replicate (minLength t - bs.length) 0

/-- The item of a table word. Four first bytes are shared by rows of several layers (entry 15): 0x7E
and 0x7D are read as raw bytes on `RX_IN`, 0x13 as an escape pair, every other byte, 0x11 among them,
as the frame-type byte of a payload. -/
def tableItem (c : Cfg) (nbits w : Nat) : Item :=
  let bs := wordBytes (nbits / 8) w
  let b := byteAt bs 0
  if b = 0x7E || b = 0x7D then .rxIn b
  else if b = 0x13 then .stuffed b
  else .payload (padPayload c bs)

/-- The context in which a table word is read: 0x7D is the escape marker only after the delimiter and
in escaped mode (R163); every other word is read with no frame in progress. -/
def tableCtx (c : Cfg) (w : Nat) : Ctx :=
  if w % 256 = 0x7D then { cfg := { c with escaped := true }, rxState := .readingLength, esc := false }
  else { cfg := c, rxState := .awaitingDelimiter, esc := false }

/-- The instruction the decoder reads from a word of the opcode table. -/
def decodeTableWord (nbits w : Nat) : Option Instr :=
  match decode (tableCtx Cfg.initial w) (tableItem Cfg.initial nbits w) with
  | .ok i => some i
  | .error _ => none

end Sys2Proof
end

