-- ==== Sys2Proof/Machine/State.lean ====
section
/-! DEFINITION. The state of one block instance (R20) as plain data, the reasons a step can stop, and
the state after reset (R350, R351). -/

namespace Sys2Proof.Machine

/-- `RX.buf` (R27): the listed bytes of the receive buffer, indices strictly rising; what an unlisted
index reads as is `bufUnlisted` (Ops). -/
abbrev Memory := List Host.Cell

/-- The RX framer registers (R21 to R27). -/
structure Rx where
  /-- `RX.state` (R21). -/
  state : RxState
  /-- `RX.esc` (R25). -/
  esc : Bool
  /-- `RX.len` (R22). -/
  len : U16
  /-- `RX.cnt` (R23). -/
  cnt : U16
  /-- `RX.sum` (R26). -/
  sum : Byte
  /-- `RX.buf` (R27). -/
  buf : Memory
deriving DecidableEq, Repr

/-- One entry of `CORR` (R34). -/
structure CorrEntry where
  /-- `pending` (R34). -/
  pending : Bool
  /-- `req_type` (R34): meaningful only while `pending` is set. -/
  reqType : Byte
deriving DecidableEq, Repr

/-- What appears on `RSP_OUT` (R297): a response, or the error that ended a wait. -/
inductive RspEvent where
  | response (f : Byte) (d : Decoded)
  | failed (e : ErrorEvent)
deriving DecidableEq, Repr

/-- The result of a `CODEC` operation (R10). -/
inductive CodecResult where
  /-- CHECKSUM. -/
  | byte (b : Byte)
  /-- ESCAPE, ENCODE. -/
  | bytes (bs : List Byte)
  /-- UNESCAPE: the logical bytes and the pending flag. -/
  | unescaped (bs : List Byte) (pending : Bool)
  /-- DECODE_FRAME, DECODE_AS. -/
  | packet (d : Decoded)
  /-- IOS_DECODE. -/
  | sample (s : Option IoSample)
  /-- IOS_POWER. -/
  | power (v : U16)
  /-- The error an operation raised (R315). -/
  | failed (e : ErrorEvent)
deriving DecidableEq, Repr

/-- The whole state: the architectural state of R20, the parameters of R7, and the model's own port
lists (entries 1 and 2). -/
structure State where
  /-- `CFG.escaped` and the construction and build parameters (R7, R30 to R33). -/
  cfg : Cfg
  /-- `CONN.open` (R36). -/
  connOpen : Bool
  /-- The RX framer (R21 to R27). -/
  rx : Rx
  /-- `CORR[0..255]` (R34). -/
  corr : Vector CorrEntry 256
  /-- `LQ`, head first (R35). -/
  lq : List Decoded
  /-- Frames emitted on `TX_OUT`, oldest first, one item each (R192). -/
  txOut : List (List Byte)
  /-- `Frame` payloads emitted on `FRAME_OUT`, oldest first (R169). -/
  frameOut : List (List Byte)
  /-- Results of `LQ_POP` on `PKT_OUT`, oldest first (R305). -/
  pktOut : List (Option Decoded)
  /-- Outcomes on `RSP_OUT`, oldest first (R297). -/
  rspOut : List RspEvent
  /-- Error events on `EVT_OUT`, oldest first (R315, R241). -/
  evtOut : List ErrorEvent
  /-- Immediate error results of `TX_REQ` operations, oldest first (R315). -/
  reqOut : List ErrorEvent
  /-- Results of `CODEC` operations, oldest first (R10). -/
  codecOut : List CodecResult
  /-- What waits at the input ports, in the order in which it takes effect (R330). -/
  input : List Item
deriving DecidableEq, Repr

/-- Why a step stops with a fault. -/
inductive Fault where
  /-- Raised by the payload step (R167) when `RX.cnt` is 65535: `RX.buf` has no such index (R27). No
  state that satisfies R28 reaches it. Safe: the model stops where the spec describes no access. -/
  | bufIndex
deriving DecidableEq, Repr

/-- Why a step refuses. -/
inductive Refusal where
  /-- Raised by `exec` for an instruction without a meaning; no arm uses it. Safe. -/
  | notModelled (mnemonic : String)
  /-- Raised by SEND_AND_WAIT, CORR_TIMEOUT and CORR_CANCEL in a build without unit 5, where they "are
  not operations of the block" (R285, R9). Safe: nothing is claimed of them there. -/
  | corrAbsent
deriving DecidableEq, Repr

/-- The RX registers after reset (R351); nothing listed in `RX.buf` (DESIGN CHOICE, unsafe, entry 4). -/
def Rx.reset : Rx :=
  { state := .awaitingDelimiter, esc := false, len := 0, cnt := 0, sum := 0, buf := [] }

/-- A free entry of `CORR` (R351); `req_type` is unspecified there and 0 here (DESIGN CHOICE, unsafe,
entry 5). -/
def CorrEntry.reset : CorrEntry := { pending := false, reqType := 0 }

/-- The state after reset of an instance built with the parameters `c` (R351, R355). -/
def State.resetWith (c : Cfg) : State :=
  { cfg := c, connOpen := true, rx := Rx.reset, corr := Vector.replicate 256 CorrEntry.reset,
    lq := [], txOut := [], frameOut := [], pktOut := [], rspOut := [], evtOut := [], reqOut := [],
    codecOut := [], input := [] }

/-- The machine right after reset (R350, R351), built with `Cfg.initial` (entry 3). -/
def State.reset : State := State.resetWith Cfg.initial

end Sys2Proof.Machine
end

