-- ==== Sys2Proof/Machine/Ops.lean ====
section
/-! DEFINITION. The shared operations: the receive buffer, the ports, raising an error, delivery, the
receive state machine, transmission and the ends of a wait. Every meaning is built from these. -/

namespace Sys2Proof.Machine

/-! ## RX.buf (R27, R60) -/

/-- The number of bytes of `RX.buf`: indices 0 to 65534 (R27). -/
def bufSize : Nat := 65535

/-- What an unlisted index reads as: R27 leaves the content unspecified (DESIGN CHOICE, unsafe,
entry 4). -/
def bufUnlisted : Byte := 0

/-- Reading one byte of the buffer. -/
def Memory.read : Memory → Nat → Byte
  | [], _ => bufUnlisted
  | (k, v) :: m, a => if k = a then v else Memory.read m a

/-- Writing one byte of the buffer, keeping the canonical form. -/
def Memory.write : Memory → Nat → Byte → Memory
  | [], a, b => if b = bufUnlisted then [] else [(a, b)]
  | (k, v) :: m, a, b =>
    if a < k then (if b = bufUnlisted then (k, v) :: m else (a, b) :: (k, v) :: m)
    else if a = k then (if b = bufUnlisted then m else (a, b) :: m)
    else (k, v) :: Memory.write m a b

/-- The canonical form from index `lo` on: indices strictly rising and existing, no listed byte equal
to what an unlisted index reads as. -/
def Memory.wfFrom : Nat → Memory → Bool
  | _, [] => true
  | lo, (k, v) :: m =>
    decide (lo ≤ k) && decide (k < bufSize) && v != bufUnlisted && Memory.wfFrom (k + 1) m

/-- The canonical form of the buffer. -/
def Memory.wf (m : Memory) : Bool := Memory.wfFrom 0 m

/-- `RX.buf[0 .. n)` (R13, R168). -/
def Memory.slice (m : Memory) (n : Nat) : List Byte := (List.range n).map m.read

/-! ## State updates -/

/-- Replaces the RX registers. -/
def State.setRx (r : Rx) (s : State) : State := { s with rx := r }

/-- Writes `CONN.open`. -/
def State.setOpen (b : Bool) (s : State) : State := { s with connOpen := b }

/-- Replaces `CORR`. -/
def State.setCorr (v : Vector CorrEntry 256) (s : State) : State := { s with corr := v }

/-- Replaces `LQ`. -/
def State.setLq (q : List Decoded) (s : State) : State := { s with lq := q }

/-- Replaces what waits at the input ports. -/
def State.setInput (q : List Item) (s : State) : State := { s with input := q }

/-- `append ... to TX_OUT as one item` (R190, R192). -/
def State.pushTx (f : List Byte) (s : State) : State := { s with txOut := s.txOut ++ [f] }

/-- `emit Frame(p)` on `FRAME_OUT` (R169). -/
def State.pushFrame (p : List Byte) (s : State) : State := { s with frameOut := s.frameOut ++ [p] }

/-- A result of `LQ_POP` on `PKT_OUT` (R305). -/
def State.pushPkt (r : Option Decoded) (s : State) : State := { s with pktOut := s.pktOut ++ [r] }

/-- `emit ... on RSP_OUT` (R297). -/
def State.pushRsp (r : RspEvent) (s : State) : State := { s with rspOut := s.rspOut ++ [r] }

/-- `emit ... on EVT_OUT` (R315). -/
def State.pushEvt (e : ErrorEvent) (s : State) : State := { s with evtOut := s.evtOut ++ [e] }

/-- The immediate error result of a `TX_REQ` operation (R315). -/
def State.pushReq (e : ErrorEvent) (s : State) : State := { s with reqOut := s.reqOut ++ [e] }

/-- The result of a `CODEC` operation (R10). -/
def State.pushCodec (r : CodecResult) (s : State) : State := { s with codecOut := s.codecOut ++ [r] }

/-! ## Raising an error (R315, R332) -/

/-- Where an error event goes (R317). -/
inductive Sink where
  /-- `EVT_OUT`: an error of the receive path. -/
  | evt
  /-- The result of a `CODEC` operation. -/
  | codec
  /-- The result of a `TX_REQ` operation. -/
  | request
  /-- `RSP_OUT`: the outcome of a wait. -/
  | response
deriving DecidableEq, Repr

/-- `raise E(info)` (R13): the one shared operation that takes an error. It places the event on its
port and does nothing else: no state is saved, no mode changes, control goes nowhere (R332), and there
is no return from it (R334). -/
def raise (k : Sink) (e : ErrorEvent) (s : State) : State :=
  match k with
  | .evt => s.pushEvt e
  | .codec => s.pushCodec (.failed e)
  | .request => s.pushReq e
  | .response => s.pushRsp (.failed e)

/-- Where a decode error goes (R317). -/
def decodeSink : DecodeSink → Sink
  | .caller => .codec
  | .receivePath => .evt

/-- Where an `OutOfRange` goes (R317). -/
def rangeSink : RangeSink → Sink
  | .codecCaller => .codec
  | .txCaller => .request

/-! ## Listener queue and correlation table (R285 to R305) -/

/-- `CORR[f]` (R34). -/
def State.corrAt (s : State) (f : Byte) : CorrEntry := s.corr[f.toNat]'f.isLt

/-- `CORR[f] <- e`. -/
def State.setCorrAt (f : Byte) (e : CorrEntry) (s : State) : State :=
  s.setCorr (s.corr.set f.toNat e f.isLt)

/-- `CORR[f].pending <- 0`; `req_type` is left as it is (entry 5). -/
def State.clearPending (f : Byte) (s : State) : State :=
  s.setCorrAt f { s.corrAt f with pending := false }

/-- The queue after `LQ_PUSH(d)` with capacity `depth`: drop-oldest (R302, R304). -/
def lqPush (depth : Nat) (q : List Decoded) (d : Decoded) : List Decoded :=
  if q.length = depth then q.drop 1 ++ [d] else q ++ [d]

/-- Whether a packet resolves the wait on frame ID `f` (R286): both conditions (R288). -/
def resolves (s : State) (f : Byte) (p : Packet) : Bool :=
  s.cfg.corrPresent && (s.corrAt f).pending &&
    respFamilyOf s.cfg (s.corrAt f).reqType == some (packetType p)

/-- The frame ID of the wait a packet resolves, if it resolves one (R286). -/
def resolvedBy (s : State) (p : Packet) : Option Byte :=
  match packetFrameId p with
  | none => none
  | some f => if resolves s f p then some f else none

/-- `DELIVER(P)` (R286): to `RSP_OUT` or into `LQ`, never both. -/
def deliver (d : Decoded) (s : State) : State :=
  match resolvedBy s d.packet with
  | some f => (s.clearPending f).pushRsp (.response f d)
  | none => s.setLq (lqPush s.cfg.lqDepth s.lq d)

/-- A wait ends with an error on `RSP_OUT` (R297). -/
def failWait (f : Byte) (e : ErrorEvent) (s : State) : State :=
  raise .response e (s.clearPending f)

/-- `LQ_POP` (R305). -/
def popListener (s : State) : State :=
  match s.lq with
  | [] => s.pushPkt none
  | d :: q => (s.setLq q).pushPkt (some d)

/-! ## The receive path (R160 to R173, R241) -/

/-- What a `Frame(p)` event leads to (R241): decode, then an error on `EVT_OUT` or DELIVER. -/
def dispatch (p : List Byte) (s : State) : State :=
  match decodeFrame s.cfg p with
  | .error e => raise .evt e s
  | .ok pkt => deliver (decodedOf s.cfg pkt) s

/-- A packet of a frame-type row has been decoded on the receive path: DELIVER it with its computed
fields (R206, R241, R286). -/
def receivePkt (pkt : Packet) (s : State) : State := deliver (decodedOf s.cfg pkt) s

/-- `step_await` on the delimiter (R162). -/
def startFrame (s : State) : State :=
  s.setRx { s.rx with state := .readingLength, len := 0, cnt := 0, sum := 0, esc := false }

/-- `step_await(b)` (R162). -/
def stepAwait (b : Byte) (s : State) : State := if b = 0x7E then startFrame s else s

/-- `step_length(u)` (R166). -/
def stepLength (u : Byte) (s : State) : State :=
  if s.rx.cnt = 0 then
    s.setRx { s.rx with len := u ++ s.rx.len.extractLsb' 0 8, cnt := 1 }
  else
    let len : U16 := s.rx.len.extractLsb' 8 8 ++ u
    s.setRx { s.rx with len := len, cnt := 0,
                        state := if len = 0 then .readingChecksum else .readingPayload }

/-- `step_payload(u)` (R167). -/
def stepPayload (u : Byte) (s : State) : Host.Outcome State Fault Refusal :=
  if s.rx.cnt.toNat < bufSize then
    let cnt := s.rx.cnt + 1
    .next (s.setRx { s.rx with buf := s.rx.buf.write s.rx.cnt.toNat u, sum := s.rx.sum + u,
                               cnt := cnt,
                               state := if cnt = s.rx.len then .readingChecksum
                                        else s.rx.state })
  else .fault .bufIndex

/-- The recovery of a failed checksum (R168, R170, R333): the frame is discarded. -/
def checksumFailed (s : State) : State :=
  raise .evt .checksumError (s.setRx { s.rx with state := .awaitingDelimiter })

/-- `step_checksum(u)` (R168), with the dispatch of the same step (R169, R241). -/
def stepChecksum (u : Byte) (s : State) : State :=
  if checksumOk s.rx.sum u then
    let p := s.rx.buf.slice s.rx.len.toNat
    dispatch p ((s.setRx { s.rx with state := .awaitingDelimiter }).pushFrame p)
  else checksumFailed s

/-- The count logic on one logical byte (R160). -/
def countLogic (u : Byte) (s : State) : Host.Outcome State Fault Refusal :=
  match s.rx.state with
  | .awaitingDelimiter => .next s
  | .readingLength => .next (stepLength u s)
  | .readingPayload => stepPayload u s
  | .readingChecksum => .next (stepChecksum u s)

/-- A raw byte after the delimiter (R160): unescape stage, then the count logic if it produced a
logical byte. -/
def stepInFrame (b : Byte) (s : State) : Host.Outcome State Fault Refusal :=
  let r := unescapeStage s.cfg.escaped s.rx.esc b
  let t := s.setRx { s.rx with esc := r.1 }
  match r.2 with
  | none => .next t
  | some u => countLogic u t

/-- `RX_BYTE(b)` (R160, R161). -/
def receive (b : Byte) (s : State) : Host.Outcome State Fault Refusal :=
  if s.connOpen then
    match s.rx.state with
    | .awaitingDelimiter => .next (stepAwait b s)
    | .readingLength | .readingPayload | .readingChecksum => stepInFrame b s
  else .next s

/-- The raw bytes of one read, received one after another (R68). -/
def receiveAll : List Byte → State → Host.Outcome State Fault Refusal
  | [], s => .next s
  | b :: w, s =>
    match receive b s with
    | .next t => receiveAll w t
    | .fault f => .fault f
    | .refused r => .refused r

/-! ## Range checks (R240) -/

/-- The error for a trailing field, if it is `Some` of an empty sequence (R240); what it records is
free (entry 7). -/
def trailingCheck (f : FieldName) : Option (List Byte) → Option ErrorEvent
  | some [] =>
    some (.outOfRange f (Config.emptyTrailingValue f) (Config.emptyTrailingRange f).1
      (Config.emptyTrailingRange f).2)
  | some (_ :: _) => none
  | none => none

/-- `rssi` must be 0 to 100 (R240, R99). -/
def rssiCheck (r : Byte) : Option ErrorEvent :=
  if 100 < r.toNat then some (.outOfRange .rssi r.toNat 0 100) else none

/-- A sequence sent with a one-byte length must have at most 255 bytes (R240). -/
def embeddedCheck (f : FieldName) (s : List Byte) : Option ErrorEvent :=
  if 255 < s.length then some (.outOfRange f s.length 0 255) else none

/-- The checks of R240 in layout order: the first field out of range is reported (R331). -/
def rangeCheck : Packet → Option ErrorEvent
  | .tx64 f => trailingCheck .rfData f.rfData
  | .tx16 f => trailingCheck .rfData f.rfData
  | .atCommand f => trailingCheck .parameter f.parameter
  | .atCommandQueue f => trailingCheck .parameter f.parameter
  | .transmitRequest f => trailingCheck .rfData f.rfData
  | .explicitAddressing f => trailingCheck .rfData f.rfData
  | .remoteAtCommand f => trailingCheck .parameter f.parameter
  | .rx64 f => (rssiCheck f.rssi).or (trailingCheck .rfData f.rfData)
  | .rx16 f => (rssiCheck f.rssi).or (trailingCheck .rfData f.rfData)
  | .rx64Io f => (rssiCheck f.rssi).or (trailingCheck .rfData f.rfData)
  | .rx16Io f => (rssiCheck f.rssi).or (trailingCheck .rfData f.rfData)
  | .atCommandResponse f => trailingCheck .value f.value
  | .txStatus _ => none
  | .modemStatus _ => none
  | .transmitStatus _ => none
  | .receivePacket f => trailingCheck .rfData f.rfData
  | .explicitRxIndicator f => trailingCheck .rfData f.rfData
  | .ioDataSampleRx f => trailingCheck .rfData f.rfData
  | .remoteAtCommandResponse f => trailingCheck .value f.value
  | .deviceRequest f => (embeddedCheck .target f.target).or (trailingCheck .data f.data)
  | .sendDataRequest f =>
    (embeddedCheck .path f.path).or
      ((embeddedCheck .contentType f.contentType).or (trailingCheck .fileData f.fileData))

/-! ## Transmission (R190 to R196, R291, R292) -/

/-- The error for a payload too long for the length field (R193). -/
def lengthCheck (p : List Byte) : Option ErrorEvent :=
  if maxLen < p.length then some (.outOfRange .length p.length 0 maxLen) else none

/-- `TX_FRAME(p)` (R190): closed is tested first and is silent (R194, R331). -/
def txFrame (p : List Byte) (s : State) : State :=
  if s.connOpen then
    match lengthCheck p with
    | some e => raise .request e s
    | none => s.pushTx (wrap s.cfg.escaped p)
  else s

/-- `SEND(P)` (R291). -/
def sendPacket (p : Packet) (s : State) : State :=
  match rangeCheck p with
  | some e => raise .request e s
  | none => txFrame (payloadOf s.cfg p) s

/-- The error SEND_AND_WAIT reports, if any, in the order of R331. -/
def waitCheck (p : Packet) (s : State) : Option ErrorEvent :=
  (rangeCheck p).or <| (lengthCheck (payloadOf s.cfg p)).or <|
    match packetFrameId p with
    | none => some .noPendingRequest
    | some f =>
      if !s.connOpen then some (.connectionClosed none)
      else if (s.corrAt f).pending then some (.frameIdInUse f)
      else none

/-- The registration of SEND_AND_WAIT (R292): `CORR[f] <- {1, P.frame_type}`. -/
def register (p : Packet) (s : State) : State :=
  match packetFrameId p with
  | none => s
  | some f => s.setCorrAt f { pending := true, reqType := packetCode s.cfg p }

/-- `SEND_AND_WAIT(P)` where unit 5 exists (R292): registration comes before transmission (R77). -/
def sendWaiting (p : Packet) (s : State) : State :=
  match waitCheck p s with
  | some e => raise .request e s
  | none => txFrame (payloadOf s.cfg p) (register p s)

/-! ## Reset and close (R350, R352) -/

/-- Every `pending` bit cleared, `req_type` left as it is. -/
def clearAll (v : Vector CorrEntry 256) : Vector CorrEntry 256 :=
  v.map fun e => { e with pending := false }

/-- The frame IDs with a pending wait, in increasing order (R299). -/
def pendingIds (v : Vector CorrEntry 256) : List Byte :=
  ((List.finRange 256).filter fun f => (v[f]).pending).map fun f => BitVec.ofNat 8 f.val

/-- `RESET` (R350): `RX.buf`, `req_type`, the configuration, the emitted sequences and what still
waits at the ports are left as they are (entries 4, 5, 19). -/
def resetBlock (s : State) : State :=
  { s with
    connOpen := true
    rx := { s.rx with state := .awaitingDelimiter, esc := false, len := 0, cnt := 0, sum := 0 }
    corr := if s.cfg.corrPresent then clearAll s.corr else s.corr
    lq := [] }

/-- The closed-errors of `CLOSE`, in increasing frame-ID order (R299, R352). -/
def closeEvents (s : State) : List RspEvent :=
  (pendingIds s.corr).map fun f => .failed (.connectionClosed (some f))

/-- `CLOSE` (R352). -/
def closeBlock (s : State) : State :=
  if s.connOpen then
    let t := { s with connOpen := false,
                      rx := { s.rx with state := .awaitingDelimiter, esc := false } }
    if s.cfg.corrPresent then
      { t with corr := clearAll s.corr, rspOut := s.rspOut ++ closeEvents s }
    else t
  else s

end Sys2Proof.Machine
end

