-- ==== Sys2Proof/Machine/Envelope.lean ====
section
/-! DEFINITION. The frame-envelope row (R90) and the ios-block row (R122). -/

namespace Sys2Proof.Machine

/-- FRAME (R90): the bytes of one frame arrive on `RX_IN`, in the raw form the mode of the connection
gives them (R94), and each is received in turn (R160) with no other event between them (entry 10). -/
def execFrame (p : List Byte) (c : Byte) (s : State) : Host.Outcome State Fault Refusal :=
  receiveAll (rawFrame s.cfg.escaped p c) s

/-- IOS_BLOCK (R122, R263): the sample of a block whose masks and values are all present (entry 12). -/
def execIosBlock (_t : IoType) (k : IosBlock) (s : State) : Host.Outcome State Fault Refusal :=
  .next (s.pushCodec (.sample (some (blockSample k))))

end Sys2Proof.Machine
end

