-- ==== Sys2Proof/Machine/ErrorEvents.lean ====
section
/-! DEFINITION. The error-event rows (R317): what raising each of them does, once the operation that raises it has
found its cause: the event on the port R317 names, and the state R333 gives (entry 13). -/

namespace Sys2Proof.Machine

/-- E1 ChecksumError (R170, R333): `RX.state <- AwaitingDelimiter`, the event on `EVT_OUT`. -/
def execChecksumError (s : State) : Host.Outcome State Fault Refusal := .next (checksumFailed s)

/-- E2 NullPayload (R207). -/
def execNullPayload (k : DecodeSink) (s : State) : Host.Outcome State Fault Refusal :=
  .next (raise (decodeSink k) .nullPayload s)

/-- E3 Incomplete(expected_min, actual) (R209). -/
def execIncomplete (m n : Nat) (k : DecodeSink) (s : State) : Host.Outcome State Fault Refusal :=
  .next (raise (decodeSink k) (.incomplete m n) s)

/-- E4 WrongFrameType(expected, actual) (R210): to the caller of DECODE_AS only. -/
def execWrongFrameType (e a : Byte) (s : State) : Host.Outcome State Fault Refusal :=
  .next (raise .codec (.wrongFrameType e a) s)

/-- E5 UnknownFrameType(byte) (R208). -/
def execUnknownFrameType (b : Byte) (k : DecodeSink) (s : State) : Host.Outcome State Fault Refusal :=
  .next (raise (decodeSink k) (.unknownFrameType b) s)

/-- E6 OutOfRange(field, value, valid_range) (R240, R193). -/
def execOutOfRange (f : FieldName) (v lo hi : Nat) (k : RangeSink) (s : State) : Host.Outcome State Fault Refusal :=
  .next (raise (rangeSink k) (.outOfRange f v lo hi) s)

/-- E7 Timeout(f) (R296, R333): `CORR[f].pending <- 0`, the event on `RSP_OUT`. -/
def execTimeout (f : Byte) (s : State) : Host.Outcome State Fault Refusal :=
  .next (failWait f (.timeout f) s)

/-- E8 ConnectionClosed (R299, R333): with a frame ID it ends that wait; without one it is the immediate
result of SEND_AND_WAIT. -/
def execConnectionClosed (f : Option Byte) (s : State) : Host.Outcome State Fault Refusal :=
  match f with
  | some f => .next (failWait f (.connectionClosed (some f)) s)
  | none => .next (raise .request (.connectionClosed none) s)

/-- E9 NoPendingRequest (R294). -/
def execNoPendingRequest (s : State) : Host.Outcome State Fault Refusal :=
  .next (raise .request .noPendingRequest s)

/-- E10 FrameIdInUse(f) (R295). -/
def execFrameIdInUse (f : Byte) (s : State) : Host.Outcome State Fault Refusal :=
  .next (raise .request (.frameIdInUse f) s)

/-- E11 OperationNotSupported (R273). -/
def execOperationNotSupported (s : State) : Host.Outcome State Fault Refusal :=
  .next (raise .codec .operationNotSupported s)

end Sys2Proof.Machine
end

