-- ==== Sys2Proof/Machine/FrameTypes.lean ====
section
/-! DEFINITION. The frame-type rows (R214 to R234). As an instruction a row is "a frame, whose frame-type byte is its
opcode" (R17): the dispatcher has a verified payload of that type (R241), its fields are read by the
row's layout (Decode), and the packet with its computed fields is delivered (R286). Entry 11. -/

namespace Sys2Proof.Machine

/-- TX64 (R214). -/
def execTx64 (f : Tx64) (s : State) : Host.Outcome State Fault Refusal :=
  .next (receivePkt (.tx64 f) s)

/-- TX16 (R215). -/
def execTx16 (f : Tx16) (s : State) : Host.Outcome State Fault Refusal :=
  .next (receivePkt (.tx16 f) s)

/-- AT_COMMAND (R216). -/
def execAtCommand (f : AtCommand) (s : State) : Host.Outcome State Fault Refusal :=
  .next (receivePkt (.atCommand f) s)

/-- AT_COMMAND_QUEUE (R217). -/
def execAtCommandQueue (f : AtCommand) (s : State) : Host.Outcome State Fault Refusal :=
  .next (receivePkt (.atCommandQueue f) s)

/-- TRANSMIT_REQUEST (R218). -/
def execTransmitRequest (f : TransmitRequest) (s : State) : Host.Outcome State Fault Refusal :=
  .next (receivePkt (.transmitRequest f) s)

/-- EXPLICIT_ADDRESSING (R219). -/
def execExplicitAddressing (f : ExplicitAddressing) (s : State) : Host.Outcome State Fault Refusal :=
  .next (receivePkt (.explicitAddressing f) s)

/-- REMOTE_AT_COMMAND (R220). -/
def execRemoteAtCommand (f : RemoteAtCommand) (s : State) : Host.Outcome State Fault Refusal :=
  .next (receivePkt (.remoteAtCommand f) s)

/-- RX64 (R221). -/
def execRx64 (f : Rx64) (s : State) : Host.Outcome State Fault Refusal :=
  .next (receivePkt (.rx64 f) s)

/-- RX16 (R222). -/
def execRx16 (f : Rx16) (s : State) : Host.Outcome State Fault Refusal :=
  .next (receivePkt (.rx16 f) s)

/-- RX64_IO (R223), with the IO sample of its trailing region. -/
def execRx64Io (f : Rx64) (s : State) : Host.Outcome State Fault Refusal :=
  .next (receivePkt (.rx64Io f) s)

/-- RX16_IO (R224), with the IO sample of its trailing region. -/
def execRx16Io (f : Rx16) (s : State) : Host.Outcome State Fault Refusal :=
  .next (receivePkt (.rx16Io f) s)

/-- AT_COMMAND_RESPONSE (R225). -/
def execAtCommandResponse (f : AtCommandResponse) (s : State) : Host.Outcome State Fault Refusal :=
  .next (receivePkt (.atCommandResponse f) s)

/-- TX_STATUS (R226). -/
def execTxStatus (f : TxStatus) (s : State) : Host.Outcome State Fault Refusal :=
  .next (receivePkt (.txStatus f) s)

/-- MODEM_STATUS (R227). -/
def execModemStatus (f : ModemStatus) (s : State) : Host.Outcome State Fault Refusal :=
  .next (receivePkt (.modemStatus f) s)

/-- TRANSMIT_STATUS (R228). -/
def execTransmitStatus (f : TransmitStatus) (s : State) : Host.Outcome State Fault Refusal :=
  .next (receivePkt (.transmitStatus f) s)

/-- RECEIVE_PACKET (R229). -/
def execReceivePacket (f : ReceivePacket) (s : State) : Host.Outcome State Fault Refusal :=
  .next (receivePkt (.receivePacket f) s)

/-- EXPLICIT_RX_INDICATOR (R230). -/
def execExplicitRxIndicator (f : ExplicitRxIndicator) (s : State) : Host.Outcome State Fault Refusal :=
  .next (receivePkt (.explicitRxIndicator f) s)

/-- IO_DATA_SAMPLE_RX (R231), with the IO sample of its trailing region. -/
def execIoDataSampleRx (f : ReceivePacket) (s : State) : Host.Outcome State Fault Refusal :=
  .next (receivePkt (.ioDataSampleRx f) s)

/-- REMOTE_AT_COMMAND_RESPONSE (R232). -/
def execRemoteAtCommandResponse (f : RemoteAtCommandResponse) (s : State) : Host.Outcome State Fault Refusal :=
  .next (receivePkt (.remoteAtCommandResponse f) s)

/-- DEVICE_REQUEST (R233). -/
def execDeviceRequest (f : DeviceRequest) (s : State) : Host.Outcome State Fault Refusal :=
  .next (receivePkt (.deviceRequest f) s)

/-- SEND_DATA_REQUEST (R234). -/
def execSendDataRequest (f : SendDataRequest) (s : State) : Host.Outcome State Fault Refusal :=
  .next (receivePkt (.sendDataRequest f) s)

end Sys2Proof.Machine
end

