-- ==== Sys2Proof/Machine/Operations.lean ====
section
/-! DEFINITION. The event rows: the operations of R10 and the internal DELIVER. -/

namespace Sys2Proof.Machine

/-- RX_BYTE(b) (R160 to R173). -/
def execRxByte (b : Byte) (s : State) : Host.Outcome State Fault Refusal := receive b s

/-- TX_FRAME(p) (R190). -/
def execTxFrame (p : List Byte) (s : State) : Host.Outcome State Fault Refusal :=
  .next (txFrame p s)

/-- CHECKSUM(p) (R140). -/
def execChecksum (p : List Byte) (s : State) : Host.Outcome State Fault Refusal :=
  .next (s.pushCodec (.byte (checksum p)))

/-- ESCAPE(r) (R146). -/
def execEscape (r : List Byte) (s : State) : Host.Outcome State Fault Refusal :=
  .next (s.pushCodec (.bytes (escape r)))

/-- UNESCAPE_FROM(e, w) (R148); UNESCAPE(w) has `e` false. -/
def execUnescape (e : Bool) (w : List Byte) (s : State) : Host.Outcome State Fault Refusal :=
  .next (s.pushCodec (.unescaped (unescapeFrom e w).1 (unescapeFrom e w).2))

/-- DECODE_FRAME(p) (R205), for a codec client. -/
def execDecodeFrame (p : List Byte) (s : State) : Host.Outcome State Fault Refusal :=
  match decodeFrame s.cfg p with
  | .ok pkt => .next (s.pushCodec (.packet (decodedOf s.cfg pkt)))
  | .error e => .next (raise .codec e s)

/-- DECODE_AS(T, p) (R210). -/
def execDecodeAs (t : FrameType) (p : List Byte) (s : State) : Host.Outcome State Fault Refusal :=
  match decodeAs s.cfg t p with
  | .ok pkt => .next (s.pushCodec (.packet (decodedOf s.cfg pkt)))
  | .error e => .next (raise .codec e s)

/-- ENCODE(P) (R238), after the checks of R240. -/
def execEncode (p : Packet) (s : State) : Host.Outcome State Fault Refusal :=
  match rangeCheck p with
  | some e => .next (raise .codec e s)
  | none => .next (s.pushCodec (.bytes (encodeBody p)))

/-- IOS_DECODE(T, b) (R263). `opcode_table.json` lets the operand be absent; what IOS_DECODE then
answers no rule states. That it is no sample is the model's choice (DEDUCED, entry 24). -/
def execIosDecode (t : IoType) (b : Option (List Byte)) (s : State) : Host.Outcome State Fault Refusal :=
  .next (s.pushCodec (.sample (b.bind (iosDecode s.cfg t))))

/-- IOS_POWER(S) (R273). -/
def execIosPower (k : IoSample) (s : State) : Host.Outcome State Fault Refusal :=
  match k.power with
  | some v => .next (s.pushCodec (.power v))
  | none => .next (raise .codec .operationNotSupported s)

/-- SEND(P) (R291). -/
def execSend (p : Packet) (s : State) : Host.Outcome State Fault Refusal := .next (sendPacket p s)

/-- SEND_AND_WAIT(P) (R292); not an operation without unit 5 (R285, entry 16). -/
def execSendAndWait (p : Packet) (s : State) : Host.Outcome State Fault Refusal :=
  if s.cfg.corrPresent then .next (sendWaiting p s) else .refused .corrAbsent

/-- DELIVER(P) (R286). -/
def execDeliver (p : Packet) (s : State) : Host.Outcome State Fault Refusal :=
  .next (deliver (decodedOf s.cfg p) s)

/-- CORR_TIMEOUT(f) (R296); not an operation without unit 5 (R285, entry 16). -/
def execCorrTimeout (f : Byte) (s : State) : Host.Outcome State Fault Refusal :=
  if s.cfg.corrPresent then
    if (s.corrAt f).pending then .next (failWait f (.timeout f) s) else .next s
  else .refused .corrAbsent

/-- CORR_CANCEL(f) (R298); not an operation without unit 5 (R285, entry 16). -/
def execCorrCancel (f : Byte) (s : State) : Host.Outcome State Fault Refusal :=
  if s.cfg.corrPresent then
    if (s.corrAt f).pending then .next (s.clearPending f) else .next s
  else .refused .corrAbsent

/-- LQ_POP (R305). -/
def execLqPop (s : State) : Host.Outcome State Fault Refusal := .next (popListener s)

/-- RESET (R350). -/
def execReset (s : State) : Host.Outcome State Fault Refusal := .next (resetBlock s)

/-- CLOSE (R352). -/
def execClose (s : State) : Host.Outcome State Fault Refusal := .next (closeBlock s)

end Sys2Proof.Machine
end

