-- ==== Sys2Proof/Machine/StreamByte.lean ====
section
/-! DEFINITION. The stream-byte rows: the classes of a raw byte (R95) and the escape pairs (R94, R146). -/

namespace Sys2Proof.Machine

/-- A frame is in progress (R25). -/
def inFrame (s : State) : Bool := s.rx.state != .awaitingDelimiter

/-- RAW_DELIMITER (R162): the start delimiter in AwaitingDelimiter. In any other state the byte 0x7E is
what R95 says it is there (entry 8). -/
def execRawDelimiter (s : State) : Host.Outcome State Fault Refusal :=
  if s.connOpen && !inFrame s then .next (startFrame s) else receive 0x7E s

/-- RAW_NOISE (R162): discarded, nothing changes. Elsewhere the byte is what R95 says (entry 8). -/
def execRawNoise (b : Byte) (s : State) : Host.Outcome State Fault Refusal :=
  if s.connOpen && !inFrame s && b != 0x7E then .next s else receive b s

/-- RAW_ESCAPE_MARKER (R163): `RX.esc <- 1`, no logical byte, no count moves. Elsewhere the byte 0x7D is
what R95 says (entry 8). -/
def execRawEscapeMarker (s : State) : Host.Outcome State Fault Refusal :=
  if s.connOpen && inFrame s && s.cfg.escaped && !s.rx.esc then
    .next (s.setRx { s.rx with esc := true })
  else receive 0x7D s

/-- RAW_ESCAPED_SECOND (R163, R165): `RX.esc <- 0` and the logical byte `b xor 0x20`, whatever `b` is.
Elsewhere the byte is what R95 says (entry 8). -/
def execRawEscapedSecond (b : Byte) (s : State) : Host.Outcome State Fault Refusal :=
  if s.connOpen && inFrame s && s.cfg.escaped && s.rx.esc then
    countLogic (b ^^^ 0x20) (s.setRx { s.rx with esc := false })
  else receive b s

/-- RAW_LITERAL (R164): the logical byte of the same value, 0x7E, 0x11 and 0x13 included. Elsewhere the
byte is what R95 says (entry 8). -/
def execRawLiteral (b : Byte) (s : State) : Host.Outcome State Fault Refusal :=
  if s.connOpen && inFrame s && !s.rx.esc && (!s.cfg.escaped || b != 0x7D) then countLogic b s
  else receive b s

/-- ESC_PAIR_7E (R146): ESCAPE of the one byte 0x7E, the pair 7D 5E (entry 9). -/
def execEscPair7E (s : State) : Host.Outcome State Fault Refusal := .next (s.pushCodec (.bytes (escapeByte 0x7E)))

/-- ESC_PAIR_7D (R146): the pair 7D 5D (entry 9). -/
def execEscPair7D (s : State) : Host.Outcome State Fault Refusal := .next (s.pushCodec (.bytes (escapeByte 0x7D)))

/-- ESC_PAIR_11 (R146): the pair 7D 31 (entry 9). -/
def execEscPair11 (s : State) : Host.Outcome State Fault Refusal := .next (s.pushCodec (.bytes (escapeByte 0x11)))

/-- ESC_PAIR_13 (R146): the pair 7D 33 (entry 9). -/
def execEscPair13 (s : State) : Host.Outcome State Fault Refusal := .next (s.pushCodec (.bytes (escapeByte 0x13)))

end Sys2Proof.Machine
end

