-- ==== Sys2Proof/Machine/Dispatch.lean ====
section
/-! DEFINITION. One arm per row of the opcode table. -/

namespace Sys2Proof.Machine

def exec (i : Instr) (s : State) : Host.Outcome State Fault Refusal :=
  match i with
  | .rawDelimiter => Sys2Proof.Machine.execRawDelimiter s
  | .rawNoise b => Sys2Proof.Machine.execRawNoise b s
  | .rawEscapeMarker => Sys2Proof.Machine.execRawEscapeMarker s
  | .rawEscapedSecond b => Sys2Proof.Machine.execRawEscapedSecond b s
  | .rawLiteral b => Sys2Proof.Machine.execRawLiteral b s
  | .escPair7E => Sys2Proof.Machine.execEscPair7E s
  | .escPair7D => Sys2Proof.Machine.execEscPair7D s
  | .escPair11 => Sys2Proof.Machine.execEscPair11 s
  | .escPair13 => Sys2Proof.Machine.execEscPair13 s
  | .frame p c => Sys2Proof.Machine.execFrame p c s
  | .tx64 f => Sys2Proof.Machine.execTx64 f s
  | .tx16 f => Sys2Proof.Machine.execTx16 f s
  | .atCommand f => Sys2Proof.Machine.execAtCommand f s
  | .atCommandQueue f => Sys2Proof.Machine.execAtCommandQueue f s
  | .transmitRequest f => Sys2Proof.Machine.execTransmitRequest f s
  | .explicitAddressing f => Sys2Proof.Machine.execExplicitAddressing f s
  | .remoteAtCommand f => Sys2Proof.Machine.execRemoteAtCommand f s
  | .rx64 f => Sys2Proof.Machine.execRx64 f s
  | .rx16 f => Sys2Proof.Machine.execRx16 f s
  | .rx64Io f => Sys2Proof.Machine.execRx64Io f s
  | .rx16Io f => Sys2Proof.Machine.execRx16Io f s
  | .atCommandResponse f => Sys2Proof.Machine.execAtCommandResponse f s
  | .txStatus f => Sys2Proof.Machine.execTxStatus f s
  | .modemStatus f => Sys2Proof.Machine.execModemStatus f s
  | .transmitStatus f => Sys2Proof.Machine.execTransmitStatus f s
  | .receivePacket f => Sys2Proof.Machine.execReceivePacket f s
  | .explicitRxIndicator f => Sys2Proof.Machine.execExplicitRxIndicator f s
  | .ioDataSampleRx f => Sys2Proof.Machine.execIoDataSampleRx f s
  | .remoteAtCommandResponse f => Sys2Proof.Machine.execRemoteAtCommandResponse f s
  | .deviceRequest f => Sys2Proof.Machine.execDeviceRequest f s
  | .sendDataRequest f => Sys2Proof.Machine.execSendDataRequest f s
  | .iosBlock t k => Sys2Proof.Machine.execIosBlock t k s
  | .rxByte b => Sys2Proof.Machine.execRxByte b s
  | .txFrame p => Sys2Proof.Machine.execTxFrame p s
  | .checksum p => Sys2Proof.Machine.execChecksum p s
  | .escape r => Sys2Proof.Machine.execEscape r s
  | .unescape e w => Sys2Proof.Machine.execUnescape e w s
  | .decodeFrame p => Sys2Proof.Machine.execDecodeFrame p s
  | .decodeAs t p => Sys2Proof.Machine.execDecodeAs t p s
  | .encode p => Sys2Proof.Machine.execEncode p s
  | .iosDecode t b => Sys2Proof.Machine.execIosDecode t b s
  | .iosPower k => Sys2Proof.Machine.execIosPower k s
  | .send p => Sys2Proof.Machine.execSend p s
  | .sendAndWait p => Sys2Proof.Machine.execSendAndWait p s
  | .deliver p => Sys2Proof.Machine.execDeliver p s
  | .corrTimeout f => Sys2Proof.Machine.execCorrTimeout f s
  | .corrCancel f => Sys2Proof.Machine.execCorrCancel f s
  | .lqPop => Sys2Proof.Machine.execLqPop s
  | .reset => Sys2Proof.Machine.execReset s
  | .close => Sys2Proof.Machine.execClose s
  | .checksumError => Sys2Proof.Machine.execChecksumError s
  | .nullPayload k => Sys2Proof.Machine.execNullPayload k s
  | .incomplete m n k => Sys2Proof.Machine.execIncomplete m n k s
  | .wrongFrameType e a => Sys2Proof.Machine.execWrongFrameType e a s
  | .unknownFrameType b k => Sys2Proof.Machine.execUnknownFrameType b k s
  | .outOfRange f v lo hi k => Sys2Proof.Machine.execOutOfRange f v lo hi k s
  | .timeout f => Sys2Proof.Machine.execTimeout f s
  | .connectionClosed f => Sys2Proof.Machine.execConnectionClosed f s
  | .noPendingRequest => Sys2Proof.Machine.execNoPendingRequest s
  | .frameIdInUse f => Sys2Proof.Machine.execFrameIdInUse f s
  | .operationNotSupported => Sys2Proof.Machine.execOperationNotSupported s

end Sys2Proof.Machine
end

