-- ==== Sys2Proof/Machine/Fetch.lean ====
section
/-! DEFINITION. Fetching: which item takes effect next, how it is decoded, what an item that names no
row does, and how a word of the opcode table is placed at the ports. -/

namespace Sys2Proof.Machine

/-- What the class of a raw byte depends on (R95). -/
def ctxOf (s : State) : Ctx := { cfg := s.cfg, rxState := s.rx.state, esc := s.rx.esc }

/-- The next item, decoded, and the state without it; nothing when nothing waits (R172). -/
def fetch (s : State) : Option (Except Reject Instr × State) :=
  match s.input with
  | [] => none
  | it :: q => some (decode (ctxOf s) it, s.setInput q)

/-- The effect of an item that is no row of the table: a decode error goes to `EVT_OUT` and nothing
else changes (R241, R333); the bytes of a chunk that is not one frame are received one by one (R68);
a block that is no sample gives `None` (R261, R269). -/
def rejectItem (r : Reject) (s : State) : Host.Outcome State Fault Refusal :=
  match r with
  | .decodeError e => .next (raise .evt e s)
  | .notOneFrame w => receiveAll w s
  | .noSample => .next (s.pushCodec (.sample none))

/-- The state in which a raw byte has the class of its table row: the connection open, and for the
delimiter no frame in progress, for the escape marker a frame in progress in escaped mode. Any other
word needs nothing (entry 15). -/
def prepareWord (nbits w : Nat) (s : State) : State :=
  match tableItem s.cfg nbits w with
  | .rxIn _ =>
    let x := tableCtx s.cfg w
    { s with cfg := x.cfg, connOpen := true, rx := { s.rx with state := x.rxState, esc := x.esc } }
  | _ => s

/-- The word's item waits first. -/
def placeWord (nbits w : Nat) (s : State) : State :=
  (prepareWord nbits w s).setInput (tableItem s.cfg nbits w :: s.input)

end Sys2Proof.Machine
end

