-- ==== Sys2Proof/Machine/Step.lean ====
section
/-! DEFINITION. One step: the next item at the ports takes effect (R11, R330). -/

namespace Sys2Proof.Machine

/-- One step. With nothing waiting the block idles (R172). -/
def step (s : State) : Host.Outcome State Fault Refusal :=
  match fetch s with
  | none => .next s
  | some (.ok i, t) => exec i t
  | some (.error r, t) => rejectItem r t

/-- The state in which the instruction of a table word is the next to run (entry 15). -/
def State.withFetchWord (s : State) (nbits w : Nat) : State := placeWord nbits w s

end Sys2Proof.Machine
end

