-- ==== Sys2Proof/Safety.lean ====
section
/-! DEFINITION. What counts as a good state and a safe step: the invariants the spec gives. -/

namespace Sys2Proof.Machine

/-- The invariants of the RX registers (R28), for a mode. -/
def RxOk (escaped : Bool) (r : Rx) : Prop :=
  (escaped = false → r.esc = false) ∧
  match r.state with
  | .awaitingDelimiter => r.esc = false
  | .readingLength => (r.cnt = 0 ∨ r.cnt = 1) ∧ r.sum = 0
  | .readingPayload => 1 ≤ r.len.toNat ∧ r.cnt.toNat < r.len.toNat
  | .readingChecksum => r.cnt = r.len

/-- The running sum is the sum of the bytes stored so far (R26). -/
def SumOk (r : Rx) : Prop :=
  match r.state with
  | .readingPayload | .readingChecksum => r.sum = byteSum (r.buf.slice r.cnt.toNat)
  | .awaitingDelimiter | .readingLength => True

/-- While an entry is pending its `req_type` is a type with `needs_frame_id` (R301 b). -/
def CorrOk (s : State) : Prop :=
  ∀ f : Byte, (s.corrAt f).pending = true →
    ∃ t, ftLookup s.cfg (s.corrAt f).reqType = some t ∧ needsFrameId t = true

/-- A closed connection hunts for a delimiter and has no pending wait (R352). -/
def ClosedOk (s : State) : Prop :=
  s.connOpen = false → s.rx.state = .awaitingDelimiter ∧ ∀ f : Byte, (s.corrAt f).pending = false

/-- Without unit 5 nothing is ever pending (R285). -/
def AbsentOk (s : State) : Prop :=
  s.cfg.corrPresent = false → ∀ f : Byte, (s.corrAt f).pending = false

/-- The listener queue holds at most `LQ_DEPTH` packets (R302), each with the computed fields of
R206. -/
def LqOk (s : State) : Prop :=
  s.lq.length ≤ s.cfg.lqDepth ∧ ∀ d ∈ s.lq, d = decodedOf s.cfg d.packet

/-- A good state: the parameters are in their ranges (R7), the buffer is canonical, and the
invariants of R26, R28, R285, R301, R302 and R352 hold. -/
structure Inv (s : State) : Prop where
  cfg : s.cfg.valid = true
  buf : s.rx.buf.wf = true
  rx : RxOk s.cfg.escaped s.rx
  sum : SumOk s.rx
  corr : CorrOk s
  closed : ClosedOk s
  absent : AbsentOk s
  lq : LqOk s

/-- A step that stops with no fault and no refusal. -/
def Completes (o : Host.Outcome State Fault Refusal) : Prop := ∃ t, o = .next t

/-! ## The vocabulary of the claims -/

/-- Feeding raw bytes to the receive path, one `RX_BYTE` each (R68, R356). -/
def feed : List Byte → State → Host.Outcome State Fault Refusal
  | [], s => .next s
  | b :: w, s =>
    match exec (.rxByte b) s with
    | .next t => feed w t
    | .fault f => .fault f
    | .refused r => .refused r

/-- One outcome after another: the second part runs only from a next state. -/
def andThen (o : Host.Outcome State Fault Refusal)
    (f : State → Host.Outcome State Fault Refusal) : Host.Outcome State Fault Refusal :=
  match o with
  | .next t => f t
  | .fault e => .fault e
  | .refused r => .refused r

/-- The raw byte `b`, arriving after the delimiter on an open connection, delivers the logical byte
`u` (R163). -/
def Delivers (s : State) (b u : Byte) : Prop :=
  s.connOpen = true ∧ s.rx.state ≠ .awaitingDelimiter ∧
  ((s.cfg.escaped = false ∧ u = b) ∨
   (s.cfg.escaped = true ∧ s.rx.esc = true ∧ u = b ^^^ 0x20) ∨
   (s.cfg.escaped = true ∧ s.rx.esc = false ∧ b ≠ 0x7D ∧ u = b))

/-- `RX.esc` after a byte that delivered a logical byte (R163): cleared in escaped mode, not touched
in plain mode. -/
def escAfter (s : State) : Bool := !s.cfg.escaped && s.rx.esc

/-- The rows a raw byte can run as: RX_BYTE itself, and the stream-byte row R95 gives it. -/
def RowOf (s : State) (b : Byte) (i : Instr) : Prop :=
  i = .rxByte b ∨ decode { cfg := s.cfg, rxState := s.rx.state, esc := s.rx.esc } (.rxIn b) = .ok i

/-- What is left after the fixed fields, as a trailing field (R98). -/
def optionalBytes (t : List Byte) : Option (List Byte) := if t = [] then none else some t

/-- The 64-bit address whose bytes are `a`, most significant first (R97). -/
def addr64Of (a : Vector Byte 8) : U64 :=
  a[0] ++ a[1] ++ a[2] ++ a[3] ++ a[4] ++ a[5] ++ a[6] ++ a[7]

/-- Decoding the payload `p` as a codec client gives `pkt` with the computed fields `bc` and `io`. -/
def DecodesTo (c : Cfg) (p : List Byte) (pkt : Packet) (bc : Bool) (io : Option IoSample) : Prop :=
  ∀ s : State, s.cfg = c → exec (.decodeFrame p) s =
    .next { s with codecOut :=
      s.codecOut ++ [.packet { packet := pkt, isBroadcast := bc, ioSample := io }] }

/-- Decoding the payload `p` as a codec client gives the error `e`. -/
def DecodeFails (c : Cfg) (p : List Byte) (e : ErrorEvent) : Prop :=
  ∀ s : State, s.cfg = c → exec (.decodeFrame p) s =
    .next { s with codecOut := s.codecOut ++ [.failed e] }

/-- Encoding `pkt` as a codec client gives the body `body`. -/
def EncodesTo (c : Cfg) (pkt : Packet) (body : List Byte) : Prop :=
  ∀ s : State, s.cfg = c → exec (.encode pkt) s =
    .next { s with codecOut := s.codecOut ++ [.bytes body] }

/-- The checks of R240 that the widths of the fields leave open. -/
def inRange : Packet → Bool
  | .tx64 f => f.rfData != some []
  | .tx16 f => f.rfData != some []
  | .atCommand f => f.parameter != some []
  | .atCommandQueue f => f.parameter != some []
  | .transmitRequest f => f.rfData != some []
  | .explicitAddressing f => f.rfData != some []
  | .remoteAtCommand f => f.parameter != some []
  | .rx64 f => decide (f.rssi.toNat ≤ 100) && f.rfData != some []
  | .rx16 f => decide (f.rssi.toNat ≤ 100) && f.rfData != some []
  | .rx64Io f => decide (f.rssi.toNat ≤ 100) && f.rfData != some []
  | .rx16Io f => decide (f.rssi.toNat ≤ 100) && f.rfData != some []
  | .atCommandResponse f => f.value != some []
  | .txStatus _ => true
  | .modemStatus _ => true
  | .transmitStatus _ => true
  | .receivePacket f => f.rfData != some []
  | .explicitRxIndicator f => f.rfData != some []
  | .ioDataSampleRx f => f.rfData != some []
  | .remoteAtCommandResponse f => f.value != some []
  | .deviceRequest f => decide (f.target.length ≤ 255) && f.data != some []
  | .sendDataRequest f =>
    decide (f.path.length ≤ 255) && decide (f.contentType.length ≤ 255) && f.fileData != some []

/-- The trailing field's name, when the field is present and empty (R240). -/
def emptyTrailing (name : FieldName) (t : Option (List Byte)) : Option FieldName :=
  if t = some [] then some name else none

/-- The field an `OutOfRange` of a packet names (R240): the first in layout order that is out of its
range (R331). -/
def fieldOutOfRange : Packet → Option FieldName
  | .tx64 f => emptyTrailing .rfData f.rfData
  | .tx16 f => emptyTrailing .rfData f.rfData
  | .atCommand f => emptyTrailing .parameter f.parameter
  | .atCommandQueue f => emptyTrailing .parameter f.parameter
  | .transmitRequest f => emptyTrailing .rfData f.rfData
  | .explicitAddressing f => emptyTrailing .rfData f.rfData
  | .remoteAtCommand f => emptyTrailing .parameter f.parameter
  | .rx64 f => if 100 < f.rssi.toNat then some .rssi else emptyTrailing .rfData f.rfData
  | .rx16 f => if 100 < f.rssi.toNat then some .rssi else emptyTrailing .rfData f.rfData
  | .rx64Io f => if 100 < f.rssi.toNat then some .rssi else emptyTrailing .rfData f.rfData
  | .rx16Io f => if 100 < f.rssi.toNat then some .rssi else emptyTrailing .rfData f.rfData
  | .atCommandResponse f => emptyTrailing .value f.value
  | .txStatus _ => none
  | .modemStatus _ => none
  | .transmitStatus _ => none
  | .receivePacket f => emptyTrailing .rfData f.rfData
  | .explicitRxIndicator f => emptyTrailing .rfData f.rfData
  | .ioDataSampleRx f => emptyTrailing .rfData f.rfData
  | .remoteAtCommandResponse f => emptyTrailing .value f.value
  | .deviceRequest f =>
    if 255 < f.target.length then some .target else emptyTrailing .data f.data
  | .sendDataRequest f =>
    if 255 < f.path.length then some .path
    else if 255 < f.contentType.length then some .contentType
    else emptyTrailing .fileData f.fileData

/-- The received signal strength of a packet that has one (R99). -/
def packetRssi : Packet → Option Byte
  | .rx64 f => some f.rssi
  | .rx16 f => some f.rssi
  | .rx64Io f => some f.rssi
  | .rx16Io f => some f.rssi
  | _ => none

/-- The condition of DELIVER for the wait on frame ID `f` (R286). -/
def Resolves (s : State) (f : Byte) (p : Packet) : Prop :=
  s.cfg.corrPresent = true ∧ packetFrameId p = some f ∧ (s.corrAt f).pending = true ∧
    respFamilyOf s.cfg (s.corrAt f).reqType = some (packetType p)

/-- The state after `LQ_PUSH` of a packet with its computed fields (R302). -/
def queued (p : Packet) (s : State) : State :=
  { s with lq := (if s.lq.length = s.cfg.lqDepth then s.lq.drop 1 else s.lq) ++ [decodedOf s.cfg p] }

/-- The state after the wait on `f` ended with the response `p` (R286). -/
def resolved (f : Byte) (p : Packet) (s : State) : State :=
  { s with corr := s.corr.set f.toNat { s.corrAt f with pending := false } f.isLt,
           rspOut := s.rspOut ++ [.response f (decodedOf s.cfg p)] }

/-- The state after DELIVER of a packet with its computed fields (R286). -/
def delivered (p : Packet) (s : State) : State :=
  match packetFrameId p with
  | none => queued p s
  | some f =>
    if s.cfg.corrPresent = true ∧ (s.corrAt f).pending = true ∧
        respFamilyOf s.cfg (s.corrAt f).reqType = some (packetType p) then resolved f p s
    else queued p s

/-- An event on `RSP_OUT` that ends the wait on frame ID `f` (R297). -/
def endsWait (f : Byte) : RspEvent → Bool
  | .response g _ => g == f
  | .failed (.timeout g) => g == f
  | .failed (.connectionClosed (some g)) => g == f
  | .failed _ => false

/-- The analog loop of R263 from line `i` on, reading at offset `o`: the values by line and the offset
behind the last one. -/
def analogLoop (b : List Byte) (am : Byte) : List Nat → Nat → List (Nat × U16) × Nat
  | [], o => ([], o)
  | i :: is, o =>
    if am.getLsbD i then
      let r := analogLoop b am is (o + 2)
      ((i, u16At b o) :: r.1, r.2)
    else analogLoop b am is o

/-- The pseudocode of R263, line by line, with a running offset. -/
def iosReference (present : Bool) (b : List Byte) : Option IoSample :=
  let s := if present then 1 else 0
  if b.length < 5 then none
  else
    let dm := u16At b s
    let am := byteAt b (s + 2)
    let d := if dm = 0 then 0 else 1
    let n := ((List.range 6).filter fun i => am.getLsbD i).length
    let v := if am.getLsbD 7 then 1 else 0
    if b.length < s + 3 + 2 * d + 2 * n + 2 * v then none
    else
      let dv := u16At b (s + 3)
      let values := analogLoop b am [0, 1, 2, 3, 4, 5] (s + 3 + 2 * d)
      some
        { digitalMask := dm
          analogMask := am
          digital := Vector.ofFn fun i : Fin 16 =>
            if dm.getLsbD i then some (if dv.getLsbD i then .high else .low) else none
          analog := Vector.ofFn fun i : Fin 6 => (values.1.find? fun x => x.1 == i.val).map (·.2)
          power := if am.getLsbD 7 then some (u16At b values.2) else none }

/-- The RX registers agree on all that a later step can read (R22, R27, U2): while a frame is in
progress everything but buffer bytes not stored yet, otherwise only `RX.state` and `RX.esc`. -/
def SameRx (a b : Rx) : Prop :=
  a.state = b.state ∧ a.esc = b.esc ∧
  (a.state ≠ .awaitingDelimiter → a.len = b.len ∧ a.cnt = b.cnt ∧ a.sum = b.sum) ∧
  (a.state = .readingPayload ∨ a.state = .readingChecksum →
    a.buf.slice a.cnt.toNat = b.buf.slice a.cnt.toNat)

/-- The correlation tables agree on all that a later step can read: every `pending` bit, and `req_type`
where it is set (R34, U2). -/
def SameCorr (s t : State) : Prop :=
  ∀ f : Byte, (s.corrAt f).pending = (t.corrAt f).pending ∧
    ((s.corrAt f).pending = true → (s.corrAt f).reqType = (t.corrAt f).reqType)

/-- Two states that differ at most in register values the spec leaves unspecified (U2). -/
def SameView (s t : State) : Prop :=
  SameRx s.rx t.rx ∧ SameCorr s t ∧
  s.cfg = t.cfg ∧ s.connOpen = t.connOpen ∧ s.lq = t.lq ∧ s.txOut = t.txOut ∧
  s.frameOut = t.frameOut ∧ s.pktOut = t.pktOut ∧ s.rspOut = t.rspOut ∧ s.evtOut = t.evtOut ∧
  s.reqOut = t.reqOut ∧ s.codecOut = t.codecOut ∧ s.input = t.input

/-- The items of the receive path: raw bytes, whole reads, verified payloads, RX_BYTE events. -/
def isReceiveItem : Item → Bool
  | .rxIn _ | .rxChunk _ | .payload _ | .event (.rxByte _) => true
  | .stuffed _ | .block _ _ | .event _ => false

/-- The items of the operations that need unit 5 (R285). -/
def isWaitItem : Item → Bool
  | .event (.sendAndWait _) | .event (.corrTimeout _) | .event (.corrCancel _) => true
  | .rxIn _ | .rxChunk _ | .stuffed _ | .payload _ | .block _ _ | .event _ => false

end Sys2Proof.Machine
end

