-- ==== Sys2Proof/Certificates/Slice0/Obligations.lean ====
section
/-! DEFINITION. The statements for the provers. Each docstring names the rule of `spec/` that the
statement formalises. A rule that the spec marks as its own decision (`D<n>` of
`92_eei_decisions.md`) or as derived is named with that mark, and a choice of the model with its log
entry. -/

open Sys2Proof Sys2Proof.Machine

/-! ## Decoding and stepping -/

/-- Words written out from the encodings of `30_encoding.md`, one or more for every layer (R90, R94,
R95, R100 to R121, R122). The four words shared by several layers are read as log entry 15 says. -/
def Obligations.WordsOfTheTablesDecode : Prop :=
  decodeTableWord 8 0x7E = some .rawDelimiter ∧
  decodeTableWord 8 0x7D = some .rawEscapeMarker ∧
  decodeTableWord 8 0x13 = some .escPair13 ∧
  decodeTableWord 32 0x494E0108 =
    some (.atCommand { frameId := 1, command := (0x4E, 0x49), parameter := none }) ∧
  decodeTableWord 16 0x068A = some (.modemStatus { status := 6 }) ∧
  decodeTableWord 8 0x42 = none ∧
  decode { cfg := Cfg.initial, rxState := .awaitingDelimiter, esc := false }
    (.rxChunk [0x7E, 0x00, 0x02, 0x8A, 0x06, 0x6F]) = .ok (.frame [0x8A, 0x06] 0x6F) ∧
  decode { cfg := Cfg.initial, rxState := .awaitingDelimiter, esc := false }
    (.payload [0x81, 0x12, 0x34, 0x32, 0x02, 0x41]) =
      .ok (.rx16 { addr16 := 0x1234, rssi := 0x32, options := 0x02, rfData := some [0x41] }) ∧
  decode { cfg := Cfg.initial, rxState := .awaitingDelimiter, esc := false }
    (.block .rx16Io [0x00, 0x01, 0x80, 0x00, 0x01, 0x0C, 0xE4]) =
      .ok (.iosBlock .rx16Io
        { nsamples := none, digitalMask := 0x0001, analogMask := 0x80, digitalValues := some 0x0001,
          analogValues := [], power := some 0x0CE4, excess := [] }) ∧
  decode { cfg := Cfg.initial, rxState := .awaitingDelimiter, esc := false } (.stuffed 0x7D) =
    .ok .escPair7D

/-- When what waits first decodes to a well-formed instruction, the step is that instruction on the
state without the item; nothing else is added around it (R11, R330; log entry 1). -/
def Obligations.StepRunsTheDecodedInstruction : Prop :=
  ∀ (s : State) (it : Item) (q : List Item) (i : Instr),
    s.input = it :: q →
    decode { cfg := s.cfg, rxState := s.rx.state, esc := s.rx.esc } it = .ok i →
    wellFormed s.cfg i = true →
    step s = exec i { s with input := q }

/-- What a step does when no instruction is decoded: nothing when nothing waits (R172), the error on
`EVT_OUT` for a payload that does not decode (R241), the bytes of a read that is not one whole frame
received one by one (R68), the result `None` for a block that is no sample (R261, R269). The queue of
waiting items is the model's own (log entry 1). -/
def Obligations.StepWithoutAnInstruction : Prop :=
  ∀ (s : State) (q : List Item),
    (s.input = [] → step s = .next s) ∧
    (∀ p e, s.input = .payload p :: q → decodeFrame s.cfg p = .error e →
      step s = .next { s with input := q, evtOut := s.evtOut ++ [e] }) ∧
    (∀ w, s.input = .rxChunk w :: q → parseFrame s.cfg.escaped w = none →
      step s = feed w { s with input := q }) ∧
    (∀ t b, s.input = .block t b :: q → iosDecode s.cfg t b = none →
      step s = .next { s with input := q, codecOut := s.codecOut ++ [.sample none] })

/-- Decoding the item of a well-formed instruction gives the instruction back, for every row an agent
issues: all operands at every value the encodings of `30_encoding.md` admit, in every context in which
a stream-byte row is the class of its byte (R95). -/
def Obligations.EncodedInstructionDecodesBack : Prop :=
  ∀ (x : Ctx) (i : Instr) (it : Item),
    x.cfg.valid = true → wellFormed x.cfg i = true → classContext x i = true →
    encode x.cfg i = some it → decode x it = .ok i

/-- The other direction, where an item has one meaning: a raw byte, a read of a whole frame, a special
byte of the stuffed region, a sample block and an event are what the encoder gives for the row they
decode to; and a decoded frame, raw byte or block is well formed. -/
def Obligations.DecodedItemEncodesBack : Prop :=
  ∀ (x : Ctx) (it : Item) (i : Instr), decode x it = .ok i →
    (match it with
     | .rxIn _ => encode x.cfg i = some it ∧ wellFormed x.cfg i = true
     | .rxChunk _ => encode x.cfg i = some it ∧ wellFormed x.cfg i = true
     | .block _ _ => encode x.cfg i = some it ∧ wellFormed x.cfg i = true
     | .stuffed b => (b = 0x7E ∨ b = 0x7D ∨ b = 0x11 ∨ b = 0x13) → encode x.cfg i = some it
     | .event _ => encode x.cfg i = some it
     | .payload _ => True)

/-- The classification of a raw byte (R95; its rows for bytes no conforming transmitter sends are the
spec's decision D3), and that each row then does what `RX_BYTE` does with the byte: start of a frame,
noise, a logical byte of the same value, an escape marker, or the logical byte `b xor 0x20`. -/
def Obligations.RawByteMeaning : Prop :=
  ∀ (s : State) (b : Byte), s.connOpen = true →
    let x : Ctx := { cfg := s.cfg, rxState := s.rx.state, esc := s.rx.esc }
    (s.rx.state = .awaitingDelimiter → b = 0x7E →
      decode x (.rxIn b) = .ok .rawDelimiter ∧ exec .rawDelimiter s = exec (.rxByte b) s) ∧
    (s.rx.state = .awaitingDelimiter → b ≠ 0x7E →
      decode x (.rxIn b) = .ok (.rawNoise b) ∧ exec (.rawNoise b) s = exec (.rxByte b) s ∧
      exec (.rxByte b) s = .next s) ∧
    (s.rx.state ≠ .awaitingDelimiter → s.cfg.escaped = false →
      decode x (.rxIn b) = .ok (.rawLiteral b) ∧ exec (.rawLiteral b) s = exec (.rxByte b) s ∧
      exec (.rxByte b) s = countLogic b s) ∧
    (s.rx.state ≠ .awaitingDelimiter → s.cfg.escaped = true → s.rx.esc = false → b = 0x7D →
      decode x (.rxIn b) = .ok .rawEscapeMarker ∧ exec .rawEscapeMarker s = exec (.rxByte b) s ∧
      exec (.rxByte b) s = .next { s with rx := { s.rx with esc := true } }) ∧
    (s.rx.state ≠ .awaitingDelimiter → s.cfg.escaped = true → s.rx.esc = false → b ≠ 0x7D →
      decode x (.rxIn b) = .ok (.rawLiteral b) ∧ exec (.rawLiteral b) s = exec (.rxByte b) s ∧
      exec (.rxByte b) s = countLogic b s) ∧
    (s.rx.state ≠ .awaitingDelimiter → s.cfg.escaped = true → s.rx.esc = true →
      decode x (.rxIn b) = .ok (.rawEscapedSecond b) ∧
      exec (.rawEscapedSecond b) s = exec (.rxByte b) s ∧
      exec (.rxByte b) s = countLogic (b ^^^ 0x20) { s with rx := { s.rx with esc := false } })

/-- The frame-type table (R100; the role and class columns and the last two rows rest on the spec's
decisions D12, D13, D18 and D29): `FT[b]` is the row whose frame-type byte is `b` and "none" for any
other byte; the columns of the 21 rows; and a packet has a frame ID exactly when its row needs one. -/
def Obligations.FrameTypeTableIsTheSpecs : Prop :=
  (∀ c : Cfg, c.valid = true → ∀ (b : Byte) (t : FrameType),
    ftLookup c b = some t ↔ frameCode c t = b) ∧
  (∀ p : Packet, (packetFrameId p).isSome = needsFrameId (packetType p)) ∧
  (∀ c : Cfg, allFrameTypes.map (fun t =>
      (frameCode c t, minLength t, needsFrameId t, broadcastClass t, role t)) =
    [(0x00, 11, true, .address, .request), (0x01, 5, true, .address, .request),
     (0x08, 4, true, .never, .request), (0x09, 4, true, .never, .request),
     (0x10, 14, true, .address, .request), (0x11, 20, true, .address, .request),
     (0x17, 15, true, .address, .request), (0x80, 11, false, .options, .indication),
     (0x81, 5, false, .options, .indication), (0x82, 11, false, .options, .indication),
     (0x83, 5, false, .options, .indication), (0x88, 5, true, .never, .response),
     (0x89, 3, true, .never, .response), (0x8A, 2, false, .never, .indication),
     (0x8B, 7, true, .never, .response), (0x90, 12, false, .options, .indication),
     (0x91, 18, false, .options, .indication), (0x92, 12, false, .options, .indication),
     (0x97, 15, true, .never, .response), (c.ftDeviceRequest, 5, false, .never, .indication),
     (c.ftSendDataRequest, 6, true, .never, .request)]) ∧
  (∀ t : FrameType, t ∈ allFrameTypes)

/-! ## ByteCodec -/

/-- CHECKSUM is `0xFF` minus the sum of the bytes modulo 256 (R140). -/
def Obligations.ChecksumOperationResult : Prop :=
  ∀ (p : List Byte) (s : State), exec (.checksum p) s =
    .next { s with codecOut := s.codecOut ++
      [.byte (BitVec.ofNat 8 (255 - (p.map (·.toNat)).sum % 256))] }

/-- The checksum invariant, with `+` and with bitwise `or` (R144), and the verification of a received
byte in both its forms (R142). -/
def Obligations.ChecksumInvariantAndVerification : Prop :=
  ∀ (p : List Byte) (c : Byte),
    ((checksum p).toNat + (p.map (·.toNat)).sum % 256) % 256 = 255 ∧
    checksum p ||| BitVec.ofNat 8 (p.map (·.toNat)).sum = 0xFF ∧
    (checksumOk (byteSum p) c = true ↔ ((p.map (·.toNat)).sum + c.toNat) % 256 = 255) ∧
    (checksumOk (byteSum p) c = true ↔ c = checksum p)

/-- Laws that the spec derives: the checksum is the complement of the sum and does not depend on the
order of the bytes (R141); UNESCAPE_FROM can be resumed on the next chunk (R150). -/
def Obligations.ChecksumAndUnescapeLaws : Prop :=
  (∀ p : List Byte, checksum p = byteSum p ^^^ 0xFF) ∧
  (∀ p q : List Byte, p.Perm q → checksum p = checksum q) ∧
  (∀ (e e1 e2 : Bool) (w1 w2 o1 o2 : List Byte),
    unescapeFrom e w1 = (o1, e1) → unescapeFrom e1 w2 = (o2, e2) →
    unescapeFrom e (w1 ++ w2) = (o1 ++ o2, e2))

/-- ESCAPE replaces each special byte by its pair (R146). -/
def Obligations.EscapeOperationResult : Prop :=
  ∀ (r : List Byte) (s : State), exec (.escape r) s =
    .next { s with codecOut := s.codecOut ++ [.bytes (r.flatMap fun b =>
      if b = 0x7E ∨ b = 0x7D ∨ b = 0x11 ∨ b = 0x13 then [0x7D, b ^^^ 0x20] else [b])] }

/-- The four escape pairs of R94, as results of the four rows. That a row is ESCAPE of one byte, with
its result on `CODEC`, is the model's choice (log entry 9). -/
def Obligations.EscapePairRowsResults : Prop :=
  ∀ s : State,
    exec .escPair7E s = .next { s with codecOut := s.codecOut ++ [.bytes [0x7D, 0x5E]] } ∧
    exec .escPair7D s = .next { s with codecOut := s.codecOut ++ [.bytes [0x7D, 0x5D]] } ∧
    exec .escPair11 s = .next { s with codecOut := s.codecOut ++ [.bytes [0x7D, 0x31]] } ∧
    exec .escPair13 s = .next { s with codecOut := s.codecOut ++ [.bytes [0x7D, 0x33]] }

/-- Laws that the spec derives: of ESCAPE, its length, the bytes it never contains, the byte after each
marker and concatenation (R147); of a transmitted frame, its size and content (R197). -/
def Obligations.EscapedBytesAndFrameShape : Prop :=
  (∀ r : List Byte, (escape r).length = r.length +
    (r.filter fun b => b = 0x7E ∨ b = 0x7D ∨ b = 0x11 ∨ b = 0x13).length) ∧
  (∀ r : List Byte, 0x7E ∉ escape r ∧ 0x11 ∉ escape r ∧ 0x13 ∉ escape r) ∧
  (∀ (r : List Byte) (k : Nat), (escape r)[k]? = some 0x7D →
    ∃ x ∈ [0x5E, 0x5D, 0x31, 0x33], (escape r)[k + 1]? = some x) ∧
  (∀ r q : List Byte, escape (r ++ q) = escape r ++ escape q) ∧
  (∀ p : List Byte,
    (wrap false p).length = p.length + 4 ∧
    (∃ k, k ≤ p.length + 3 ∧ (wrap true p).length = p.length + 4 + k ∧
      k = (([BitVec.ofNat 8 (p.length / 256), BitVec.ofNat 8 p.length] ++ p ++ [checksum p]).filter
        fun b => b = 0x7E ∨ b = 0x7D ∨ b = 0x11 ∨ b = 0x13).length) ∧
    (∀ e, (wrap e p).head? = some 0x7E) ∧
    (∀ b ∈ (wrap true p).tail, b ≠ 0x7E ∧ b ≠ 0x11 ∧ b ≠ 0x13))

/-- UNESCAPE_FROM, iteration by iteration (R148; the treatment of pairs no sender produces is the spec's
decision D4). -/
def Obligations.UnescapeOperationResult : Prop :=
  (∀ (e : Bool) (w : List Byte) (s : State), exec (.unescape e w) s =
    .next { s with codecOut :=
      s.codecOut ++ [.unescaped (unescapeFrom e w).1 (unescapeFrom e w).2] }) ∧
  (∀ e : Bool, unescapeFrom e [] = ([], e)) ∧
  (∀ (b : Byte) (w : List Byte), unescapeFrom true (b :: w) =
    ((b ^^^ 0x20) :: (unescapeFrom false w).1, (unescapeFrom false w).2)) ∧
  (∀ w : List Byte, unescapeFrom false (0x7D :: w) = unescapeFrom true w) ∧
  (∀ (b : Byte) (w : List Byte), b ≠ 0x7D → unescapeFrom false (b :: w) =
    (b :: (unescapeFrom false w).1, (unescapeFrom false w).2))

/-- The escaping invariant (R149): UNESCAPE of ESCAPE gives the bytes back, with no marker pending. -/
def Obligations.UnescapeInvertsEscape : Prop :=
  ∀ (r : List Byte) (s : State), exec (.unescape false (escape r)) s =
    .next { s with codecOut := s.codecOut ++ [.unescaped r false] }

/-! ## RX framer -/

/-- The step in AwaitingDelimiter (R162), for RX_BYTE and the two rows of R95. -/
def Obligations.DelimiterHuntStep : Prop :=
  ∀ s : State, s.connOpen = true → s.rx.state = .awaitingDelimiter →
    (∀ i, i = .rxByte 0x7E ∨ i = .rawDelimiter → exec i s =
      .next { s with rx := { s.rx with state := .readingLength, len := 0, cnt := 0, sum := 0,
                                       esc := false } }) ∧
    (∀ b i, b ≠ 0x7E → i = .rxByte b ∨ i = .rawNoise b → exec i s = .next s)

/-- The step in ReadingLength (R166; that a zero length goes straight to the checksum is the spec's
decision D5). -/
def Obligations.LengthByteStep : Prop :=
  ∀ (s : State) (b u : Byte) (i : Instr), Delivers s b u → RowOf s b i →
    s.rx.state = .readingLength →
    (s.rx.cnt = 0 → exec i s =
      .next { s with rx := { s.rx with
        esc := escAfter s, len := u ++ s.rx.len.extractLsb' 0 8, cnt := 1 } }) ∧
    (s.rx.cnt = 1 → exec i s =
      .next { s with rx := { s.rx with
        esc := escAfter s, len := s.rx.len.extractLsb' 8 8 ++ u, cnt := 0,
        state := if s.rx.len.extractLsb' 8 8 = 0 ∧ u = 0 then .readingChecksum
                 else .readingPayload } })

/-- The step in ReadingPayload (R167): the byte is stored at `RX.cnt`, every other byte of the buffer
reads as before, sum and count move, and the last byte leads to ReadingChecksum. The bound on `RX.cnt`
is the invariant of R28 in this state. -/
def Obligations.PayloadByteStep : Prop :=
  ∀ (s : State) (b u : Byte) (i : Instr), Delivers s b u → RowOf s b i →
    s.rx.state = .readingPayload → s.rx.cnt.toNat < s.rx.len.toNat → s.rx.buf.wf = true →
    ∃ buf : Memory,
      exec i s = .next { s with rx :=
        { state := if s.rx.cnt.toNat + 1 = s.rx.len.toNat then .readingChecksum else .readingPayload
          esc := escAfter s, len := s.rx.len, cnt := s.rx.cnt + 1, sum := s.rx.sum + u
          buf := buf } } ∧
      buf.wf = true ∧ ∀ a, buf.read a = if a = s.rx.cnt.toNat then u else s.rx.buf.read a

/-- The step in ReadingChecksum (R168, R169), with what follows it in the same step (R241): the verdict
on the sum, the frame on `FRAME_OUT`, then the decode error on `EVT_OUT` or the delivery. -/
def Obligations.ChecksumByteStep : Prop :=
  ∀ (s : State) (b u : Byte) (i : Instr), Delivers s b u → RowOf s b i →
    s.rx.state = .readingChecksum →
    let r : Rx := { s.rx with esc := escAfter s, state := .awaitingDelimiter }
    let p := s.rx.buf.slice s.rx.len.toNat
    ((s.rx.sum.toNat + u.toNat) % 256 ≠ 255 →
      exec i s = .next { s with rx := r, evtOut := s.evtOut ++ [.checksumError] }) ∧
    ((s.rx.sum.toNat + u.toNat) % 256 = 255 →
      (∀ e, decodeFrame s.cfg p = .error e → exec i s =
        .next { s with rx := r, frameOut := s.frameOut ++ [p], evtOut := s.evtOut ++ [e] }) ∧
      (∀ pkt, decodeFrame s.cfg p = .ok pkt → exec i s =
        exec (.deliver pkt) { s with rx := r, frameOut := s.frameOut ++ [p] }))

/-- RX_BYTE is total on the states of R28 (R160), and so is each of the five stream-byte rows with any
byte (log entry 8 says what a row is outside its condition): the step gives a next state, and of all
the state only the RX registers, `CORR`, `LQ`, `FRAME_OUT`, `RSP_OUT` and `EVT_OUT` can differ in it.
`RX.buf` has the indices 0 to 65534 (R27): a count of 65535 in ReadingPayload, which R28 rules out, is
the one case in which the payload step stops (log entry 6, the model's choice). -/
def Obligations.RawBytesComplete : Prop :=
  ∀ (s : State) (b : Byte) (i : Instr),
    (RxOk s.cfg.escaped s.rx →
      i = .rxByte b ∨ i = .rawDelimiter ∨ i = .rawNoise b ∨ i = .rawEscapeMarker ∨
        i = .rawEscapedSecond b ∨ i = .rawLiteral b →
      ∃ t, exec i s = .next t ∧ t.cfg = s.cfg ∧ t.connOpen = s.connOpen ∧ t.txOut = s.txOut ∧
        t.pktOut = s.pktOut ∧ t.reqOut = s.reqOut ∧ t.codecOut = s.codecOut ∧ t.input = s.input) ∧
    (∀ u, Delivers s b u → RowOf s b i → s.rx.state = .readingPayload →
      (s.rx.cnt = 65535 ↔ exec i s = .fault .bufIndex))

/-- The framing round trip, which the spec derives (R174): any number of wrapped payloads, with noise
before, between and after them, give exactly their frames in order, no checksum error, and the framer
hunts for a delimiter again; their decode errors are all that appears on `EVT_OUT`. Before its last
byte a wrapped payload changes nothing but the RX registers. -/
def Obligations.FramingRoundTrip : Prop :=
  (∀ (s : State) (frames : List (List Byte × List Byte)) (tail : List Byte),
    s.connOpen = true → s.rx.state = .awaitingDelimiter → s.rx.esc = false →
    s.rx.buf.wf = true →
    (∀ f ∈ frames, 0x7E ∉ f.1 ∧ f.2.length ≤ 65535) → 0x7E ∉ tail →
    ∃ t, feed (frames.flatMap (fun f => f.1 ++ wrap s.cfg.escaped f.2) ++ tail) s = .next t ∧
      t.frameOut = s.frameOut ++ frames.map (·.2) ∧
      t.evtOut = s.evtOut ++ frames.filterMap (fun f =>
        match decodeFrame s.cfg f.2 with | .error e => some e | .ok _ => none) ∧
      t.rx.state = .awaitingDelimiter ∧ t.rx.esc = false ∧ t.rx.buf.wf = true ∧
      t.cfg = s.cfg ∧ t.connOpen = s.connOpen ∧ t.txOut = s.txOut ∧ t.pktOut = s.pktOut ∧
      t.reqOut = s.reqOut ∧ t.codecOut = s.codecOut ∧ t.input = s.input) ∧
  (∀ (s : State) (p : List Byte) (k : Nat),
    s.connOpen = true → s.rx.state = .awaitingDelimiter → p.length ≤ 65535 →
    k < (wrap s.cfg.escaped p).length →
    ∃ r : Rx, feed ((wrap s.cfg.escaped p).take k) s = .next { s with rx := r })

/-- A frame as a whole (R90, R92, R93, R94), as one row (log entry 10): with the checksum byte of its
payload it is emitted and decoded or rejected; with any other it is a checksum error and nothing of it
reaches the dispatcher (R170). -/
def Obligations.WholeFrameIsReceived : Prop :=
  ∀ (s : State) (p : List Byte) (c : Byte),
    s.connOpen = true → s.rx.state = .awaitingDelimiter → s.rx.buf.wf = true →
    p.length ≤ 65535 →
    ∃ r : Rx, r.state = .awaitingDelimiter ∧
      (c ≠ checksum p → exec (.frame p c) s =
        .next { s with rx := r, evtOut := s.evtOut ++ [.checksumError] }) ∧
      (c = checksum p →
        (∀ e, decodeFrame s.cfg p = .error e → exec (.frame p c) s =
          .next { s with rx := r, frameOut := s.frameOut ++ [p], evtOut := s.evtOut ++ [e] }) ∧
        (∀ pkt, decodeFrame s.cfg p = .ok pkt → exec (.frame p c) s =
          exec (.deliver pkt) { s with rx := r, frameOut := s.frameOut ++ [p] }))

/-- The receive path does not depend on how bytes are grouped into reads, which the spec derives (R68):
feeding a sequence is feeding any split of it, and a step on a whole read is feeding its bytes. -/
def Obligations.ReadGroupingDoesNotMatter : Prop :=
  (∀ (v w : List Byte) (s : State), feed (v ++ w) s = andThen (feed v s) (feed w)) ∧
  (∀ (w : List Byte) (q : List Item) (s : State), s.input = .rxChunk w :: q →
    step s = feed w { s with input := q })

/-- Over any bytes received from a good state, every packet of the new frames goes to exactly one of two
places: `added` enters `LQ`, `ended` ends the wait on the packet's own frame ID as a response on
`RSP_OUT` (R286). The two are a partition of the packets, and each keeps the order in which the frames
completed (R74, R303). `LQ` keeps the last `LQ_DEPTH` of what it held and of what entered it (R302;
drop-oldest is the spec's decision D14). Without unit 5 every packet enters `LQ` (R285, decision
D19). -/
def Obligations.ReceivedPacketsQueueInArrivalOrder : Prop :=
  ∀ (w : List Byte) (s : State), Inv s →
    ∃ (t : State) (frames : List (List Byte)) (added : List Decoded) (ended : List (Byte × Decoded)),
      feed w s = .next t ∧
      t.frameOut = s.frameOut ++ frames ∧
      t.rspOut = s.rspOut ++ ended.map (fun x => .response x.1 x.2) ∧
      t.lq = (s.lq ++ added).drop ((s.lq ++ added).length - s.cfg.lqDepth) ∧
      (let packets := frames.filterMap (fun p =>
          match decodeFrame s.cfg p with
          | .ok pkt => some (decodedOf s.cfg pkt)
          | .error _ => none)
       packets.Perm (added ++ ended.map (·.2)) ∧
       added.Sublist packets ∧ (ended.map (·.2)).Sublist packets ∧
       (∀ x ∈ ended, packetFrameId x.2.packet = some x.1) ∧
       (s.cfg.corrPresent = false → added = packets ∧ ended = []))

/-! ## TX framer -/

/-- TX_FRAME and `wrap` (R190, R192). The refusal of a payload too long for the length field (R193) is
the spec's decision D6, the silence while closed (R194) D32, that it is tested first (R331) D26. -/
def Obligations.TransmitFrameResult : Prop :=
  ∀ (p : List Byte) (s : State),
    (s.connOpen = false → exec (.txFrame p) s = .next s) ∧
    (s.connOpen = true → 65535 < p.length → exec (.txFrame p) s =
      .next { s with reqOut := s.reqOut ++ [.outOfRange .length p.length 0 65535] }) ∧
    (s.connOpen = true → p.length ≤ 65535 →
      let body := [BitVec.ofNat 8 (p.length / 256), BitVec.ofNat 8 p.length] ++ p ++ [checksum p]
      exec (.txFrame p) s = .next { s with txOut := s.txOut ++
        [if s.cfg.escaped then 0x7E :: escape body else 0x7E :: body] })

/-! ## Dispatcher -/

/-- The round trip of the dispatcher (R237): a packet in its ranges decodes from its payload; and a
payload that decodes is its packet's payload, but for the bytes R213 drops. -/
def Obligations.PacketRoundTrip : Prop :=
  (∀ (c : Cfg) (p : Packet), c.valid = true → inRange p = true →
    decodeFrame c (payloadOf c p) = .ok p) ∧
  (∀ (c : Cfg) (b : List Byte) (p : Packet), decodeFrame c b = .ok p →
    ∃ extra, b = payloadOf c p ++ extra ∧
      (extra ≠ [] → packetType p = .txStatus ∨ packetType p = .modemStatus ∨
        packetType p = .transmitStatus))

/-- The tests of DECODE_FRAME (R205) and of DECODE_AS (R210, an operation of its own by the spec's
decision D34) in order: the first that fails is reported, and a payload that passes them all gives a
packet of its type or, for the two types with embedded lengths only, Incomplete again (R209, R235, R236,
decision D31). That an empty payload is NullPayload (R207) is decision D5, the name UnknownFrameType
(R208) D25, the order of DECODE_FRAME's tests (R331) D26. -/
def Obligations.DecodeTestsInOrder : Prop :=
  ∀ s : State, s.cfg.valid = true →
    (exec (.decodeFrame []) s = .next { s with codecOut := s.codecOut ++ [.failed .nullPayload] }) ∧
    (∀ b w, ftLookup s.cfg b = none → exec (.decodeFrame (b :: w)) s =
      .next { s with codecOut := s.codecOut ++ [.failed (.unknownFrameType b)] }) ∧
    (∀ b w t, ftLookup s.cfg b = some t →
      exec (.decodeFrame (b :: w)) s = exec (.decodeAs t (b :: w)) s) ∧
    (∀ t, exec (.decodeAs t []) s =
      .next { s with codecOut := s.codecOut ++ [.failed .nullPayload] }) ∧
    (∀ t b w, w.length + 1 < minLength t → exec (.decodeAs t (b :: w)) s =
      .next { s with codecOut :=
        s.codecOut ++ [.failed (.incomplete (minLength t) (w.length + 1))] }) ∧
    (∀ t b w, minLength t ≤ w.length + 1 → b ≠ frameCode s.cfg t → exec (.decodeAs t (b :: w)) s =
      .next { s with codecOut :=
        s.codecOut ++ [.failed (.wrongFrameType (frameCode s.cfg t) b)] }) ∧
    (∀ t b w, minLength t ≤ w.length + 1 → b = frameCode s.cfg t →
      (∃ p, packetType p = t ∧ decodeFrame s.cfg (b :: w) = .ok p ∧
        exec (.decodeAs t (b :: w)) s =
          .next { s with codecOut := s.codecOut ++ [.packet (decodedOf s.cfg p)] }) ∨
      ((t = .deviceRequest ∨ t = .sendDataRequest) ∧
        ∃ m, w.length + 1 < m ∧ exec (.decodeAs t (b :: w)) s =
          .next { s with codecOut := s.codecOut ++ [.failed (.incomplete m (w.length + 1))] }))

/-- The layouts of TX64, TX16, AT_COMMAND and AT_COMMAND_QUEUE, byte by byte, on decode and on encode
(R214, R215, R216, R217). -/
def Obligations.ShortRequestLayouts : Prop :=
  ∀ (c : Cfg) (id o x y : Byte) (a : Vector Byte 8) (h l : Byte) (t : List Byte),
    (let p := Packet.tx64 { frameId := id, addr64 := addr64Of a, options := o,
                            rfData := optionalBytes t }
     DecodesTo c ([0x00, id] ++ a.toList ++ [o] ++ t) p
       (decide (addr64Of a = 0x000000000000FFFF)) none ∧
     EncodesTo c p ([id] ++ a.toList ++ [o] ++ t)) ∧
    (let p := Packet.tx16 { frameId := id, addr16 := h ++ l, options := o,
                            rfData := optionalBytes t }
     DecodesTo c ([0x01, id, h, l, o] ++ t) p (decide (h ++ l = c.addr16Broadcast)) none ∧
     EncodesTo c p ([id, h, l, o] ++ t)) ∧
    (let p := Packet.atCommand { frameId := id, command := (x, y), parameter := optionalBytes t }
     DecodesTo c ([0x08, id, x, y] ++ t) p false none ∧ EncodesTo c p ([id, x, y] ++ t)) ∧
    (let p := Packet.atCommandQueue { frameId := id, command := (x, y),
                                      parameter := optionalBytes t }
     DecodesTo c ([0x09, id, x, y] ++ t) p false none ∧ EncodesTo c p ([id, x, y] ++ t))

/-- The layouts of TRANSMIT_REQUEST, EXPLICIT_ADDRESSING and REMOTE_AT_COMMAND (R218, R219, R220). -/
def Obligations.AddressedRequestLayouts : Prop :=
  ∀ (c : Cfg) (id o x y : Byte) (a : Vector Byte 8) (h l r se de ch cl ph pl : Byte)
    (t : List Byte),
    let bc := decide (addr64Of a = 0x000000000000FFFF ∨ h ++ l = c.addr16Broadcast)
    (let p := Packet.transmitRequest
        { frameId := id, addr64 := addr64Of a, addr16 := h ++ l, bcastRadius := r, options := o,
          rfData := optionalBytes t }
     DecodesTo c ([0x10, id] ++ a.toList ++ [h, l, r, o] ++ t) p bc none ∧
     EncodesTo c p ([id] ++ a.toList ++ [h, l, r, o] ++ t)) ∧
    (let p := Packet.explicitAddressing
        { frameId := id, addr64 := addr64Of a, addr16 := h ++ l, srcEp := se, dstEp := de,
          cluster := ch ++ cl, profile := ph ++ pl, bcastRadius := r, options := o,
          rfData := optionalBytes t }
     DecodesTo c ([0x11, id] ++ a.toList ++ [h, l, se, de, ch, cl, ph, pl, r, o] ++ t) p bc none ∧
     EncodesTo c p ([id] ++ a.toList ++ [h, l, se, de, ch, cl, ph, pl, r, o] ++ t)) ∧
    (let p := Packet.remoteAtCommand
        { frameId := id, addr64 := addr64Of a, addr16 := h ++ l, options := o, command := (x, y),
          parameter := optionalBytes t }
     DecodesTo c ([0x17, id] ++ a.toList ++ [h, l, o, x, y] ++ t) p bc none ∧
     EncodesTo c p ([id] ++ a.toList ++ [h, l, o, x, y] ++ t))

/-- The layouts of RX64, RX16, RX64_IO and RX16_IO (R221, R222, R223, R224): decode takes any `rssi`,
encode one of at most 100. -/
def Obligations.LegacyReceiveLayouts : Prop :=
  ∀ (c : Cfg) (o r : Byte) (a : Vector Byte 8) (h l : Byte) (t : List Byte),
    let bc := decide (o &&& 0x06 ≠ 0)
    (let f : Rx64 := { addr64 := addr64Of a, rssi := r, options := o, rfData := optionalBytes t }
     DecodesTo c ([0x80] ++ a.toList ++ [r, o] ++ t) (.rx64 f) bc none ∧
     DecodesTo c ([0x82] ++ a.toList ++ [r, o] ++ t) (.rx64Io f) bc
       (if t = [] then none else iosReference (nsampPresent c .rx64Io) t) ∧
     (r.toNat ≤ 100 → EncodesTo c (.rx64 f) (a.toList ++ [r, o] ++ t) ∧
       EncodesTo c (.rx64Io f) (a.toList ++ [r, o] ++ t))) ∧
    (let f : Rx16 := { addr16 := h ++ l, rssi := r, options := o, rfData := optionalBytes t }
     DecodesTo c ([0x81, h, l, r, o] ++ t) (.rx16 f) bc none ∧
     DecodesTo c ([0x83, h, l, r, o] ++ t) (.rx16Io f) bc
       (if t = [] then none else iosReference (nsampPresent c .rx16Io) t) ∧
     (r.toNat ≤ 100 → EncodesTo c (.rx16 f) ([h, l, r, o] ++ t) ∧
       EncodesTo c (.rx16Io f) ([h, l, r, o] ++ t)))

/-- The layouts of AT_COMMAND_RESPONSE, TX_STATUS, MODEM_STATUS and TRANSMIT_STATUS (R225, R226, R227,
R228); that later bytes of the last three are ignored is the spec's decision D10 (R213). -/
def Obligations.StatusLayouts : Prop :=
  ∀ (c : Cfg) (id x y st h l n d e : Byte) (t : List Byte),
    (let p := Packet.atCommandResponse { frameId := id, command := (x, y), status := st,
                                         value := optionalBytes t }
     DecodesTo c ([0x88, id, x, y, st] ++ t) p false none ∧ EncodesTo c p ([id, x, y, st] ++ t)) ∧
    (let p := Packet.txStatus { frameId := id, status := st }
     DecodesTo c ([0x89, id, st] ++ t) p false none ∧ EncodesTo c p [id, st]) ∧
    (let p := Packet.modemStatus { status := st }
     DecodesTo c ([0x8A, st] ++ t) p false none ∧ EncodesTo c p [st]) ∧
    (let p := Packet.transmitStatus { frameId := id, addr16 := h ++ l, retryCount := n,
                                      deliveryStatus := d, discoveryStatus := e }
     DecodesTo c ([0x8B, id, h, l, n, d, e] ++ t) p false none ∧
     EncodesTo c p [id, h, l, n, d, e])

/-- The layouts of RECEIVE_PACKET, EXPLICIT_RX_INDICATOR, IO_DATA_SAMPLE_RX and
REMOTE_AT_COMMAND_RESPONSE (R229, R230, R231, R232). -/
def Obligations.AddressedReceiveLayouts : Prop :=
  ∀ (c : Cfg) (id o x y st : Byte) (a : Vector Byte 8) (h l se de ch cl ph pl : Byte)
    (t : List Byte),
    let bc := decide (o &&& 0x06 ≠ 0)
    (let f : ReceivePacket := { addr64 := addr64Of a, addr16 := h ++ l, options := o,
                                rfData := optionalBytes t }
     DecodesTo c ([0x90] ++ a.toList ++ [h, l, o] ++ t) (.receivePacket f) bc none ∧
     EncodesTo c (.receivePacket f) (a.toList ++ [h, l, o] ++ t) ∧
     DecodesTo c ([0x92] ++ a.toList ++ [h, l, o] ++ t) (.ioDataSampleRx f) bc
       (if t = [] then none else iosReference (nsampPresent c .ioDataSampleRx) t) ∧
     EncodesTo c (.ioDataSampleRx f) (a.toList ++ [h, l, o] ++ t)) ∧
    (let p := Packet.explicitRxIndicator
        { addr64 := addr64Of a, addr16 := h ++ l, srcEp := se, dstEp := de, cluster := ch ++ cl,
          profile := ph ++ pl, options := o, rfData := optionalBytes t }
     DecodesTo c ([0x91] ++ a.toList ++ [h, l, se, de, ch, cl, ph, pl, o] ++ t) p bc none ∧
     EncodesTo c p (a.toList ++ [h, l, se, de, ch, cl, ph, pl, o] ++ t)) ∧
    (let p := Packet.remoteAtCommandResponse
        { frameId := id, addr64 := addr64Of a, addr16 := h ++ l, command := (x, y), status := st,
          value := optionalBytes t }
     DecodesTo c ([0x97, id] ++ a.toList ++ [h, l, x, y, st] ++ t) p false none ∧
     EncodesTo c p ([id] ++ a.toList ++ [h, l, x, y, st] ++ t))

/-- The two layouts with embedded lengths (R233, R234), and the errors for lengths that exceed the
payload (R235 and R236, the spec's decision D31). -/
def Obligations.EmbeddedLengthLayouts : Prop :=
  ∀ (c : Cfg), c.valid = true →
    (∀ (id tr fl : Byte) (g t : List Byte), g.length ≤ 255 →
      let p := Packet.deviceRequest { requestId := id, transport := tr, flags := fl, target := g,
                                      data := optionalBytes t }
      DecodesTo c ([c.ftDeviceRequest, id, tr, fl, BitVec.ofNat 8 g.length] ++ g ++ t) p false none ∧
      EncodesTo c p ([id, tr, fl, BitVec.ofNat 8 g.length] ++ g ++ t)) ∧
    (∀ (id tr fl n : Byte) (t : List Byte), t.length < n.toNat →
      DecodeFails c ([c.ftDeviceRequest, id, tr, fl, n] ++ t)
        (.incomplete (5 + n.toNat) (5 + t.length))) ∧
    (∀ (id tr o : Byte) (g k t : List Byte), g.length ≤ 255 → k.length ≤ 255 →
      let p := Packet.sendDataRequest { frameId := id, path := g, contentType := k, transport := tr,
                                        options := o, fileData := optionalBytes t }
      let body := [id, BitVec.ofNat 8 g.length] ++ g ++ [BitVec.ofNat 8 k.length] ++ k ++ [tr, o] ++ t
      DecodesTo c (c.ftSendDataRequest :: body) p false none ∧ EncodesTo c p body) ∧
    (∀ (id n : Byte) (t : List Byte), 3 ≤ t.length → t.length < n.toNat + 3 →
      DecodeFails c ([c.ftSendDataRequest, id, n] ++ t)
        (.incomplete (6 + n.toNat) (3 + t.length))) ∧
    (∀ (id m : Byte) (g t : List Byte), g.length ≤ 255 → 2 ≤ t.length → t.length < m.toNat + 2 →
      DecodeFails c ([c.ftSendDataRequest, id, BitVec.ofNat 8 g.length] ++ g ++ [m] ++ t)
        (.incomplete (6 + g.length + m.toNat) (4 + g.length + t.length)))

/-- ENCODE of a packet in its ranges, and `payload(P)` (R238, R239): the body without its frame-type
byte; with it, the payload that DECODE_FRAME takes back. -/
def Obligations.EncodeOperationResult : Prop :=
  ∀ (s : State) (p : Packet), s.cfg.valid = true → inRange p = true →
    ∃ body, exec (.encode p) s = .next { s with codecOut := s.codecOut ++ [.bytes body] } ∧
      payloadOf s.cfg p = frameCode s.cfg (packetType p) :: body ∧
      exec (.decodeFrame (frameCode s.cfg (packetType p) :: body)) s =
        .next { s with codecOut := s.codecOut ++ [.packet (decodedOf s.cfg p)] }

/-- The range checks at construction (R240, the spec's decisions D11 and D35; that the first field in
layout order is the one reported is decision D26): a packet out of range produces no bytes, and the
error names that field, with its value and range where the spec states them. For an empty trailing field
it states neither, so only these two stay open (log entry 7). -/
def Obligations.RangeChecksAtConstruction : Prop :=
  ∀ (s : State) (p : Packet),
    (inRange p = false → ∃ field value lo hi, fieldOutOfRange p = some field ∧
      exec (.encode p) s =
        .next { s with codecOut := s.codecOut ++ [.failed (.outOfRange field value lo hi)] } ∧
      exec (.send p) s = .next { s with reqOut := s.reqOut ++ [.outOfRange field value lo hi] } ∧
      (s.cfg.corrPresent = true → exec (.sendAndWait p) s =
        .next { s with reqOut := s.reqOut ++ [.outOfRange field value lo hi] })) ∧
    (∀ r, packetRssi p = some r → 100 < r.toNat → exec (.encode p) s =
      .next { s with codecOut := s.codecOut ++ [.failed (.outOfRange .rssi r.toNat 0 100)] }) ∧
    (∀ f, p = .deviceRequest f → 255 < f.target.length → exec (.encode p) s =
      .next { s with codecOut :=
        s.codecOut ++ [.failed (.outOfRange .target f.target.length 0 255)] }) ∧
    (∀ f, p = .sendDataRequest f → 255 < f.path.length → exec (.encode p) s =
      .next { s with codecOut :=
        s.codecOut ++ [.failed (.outOfRange .path f.path.length 0 255)] }) ∧
    (∀ f, p = .sendDataRequest f → f.path.length ≤ 255 → 255 < f.contentType.length →
      exec (.encode p) s = .next { s with codecOut :=
        s.codecOut ++ [.failed (.outOfRange .contentType f.contentType.length 0 255)] })

/-! ## IO sample codec -/

/-- IOS_DECODE is the pseudocode of R263, line by line, for every block (the 5-byte test of R261 is the
spec's decision D17, the reading of the masks and of extra bytes D28); the record's maps are defined
exactly where its masks say (R262). That an absent block gives no sample is the model's choice (log
entry 24). -/
def Obligations.IosDecodeIsItsPseudocode : Prop :=
  ∀ (t : IoType) (b : Option (List Byte)) (s : State),
    exec (.iosDecode t b) s = .next { s with codecOut :=
      s.codecOut ++ [.sample (b.bind (iosReference (nsampPresent s.cfg t)))] } ∧
    (∀ bs k, b = some bs → iosReference (nsampPresent s.cfg t) bs = some k → sampleOk k = true)

/-- A well-formed block row gives the sample that IOS_DECODE gives for its bytes (R122; that the row
runs so is log entry 12). Bytes beyond those the masks call for change nothing (R268, the spec's
decision D28), and a block without its last needed byte is no sample (R269, R261). -/
def Obligations.IosBlockRowAndLength : Prop :=
  (∀ (t : IoType) (k : IosBlock) (s : State), blockOk s.cfg t k = true →
    ∃ smp, exec (.iosBlock t k) s = .next { s with codecOut := s.codecOut ++ [.sample (some smp)] } ∧
      exec (.iosDecode t (some (blockBytes k))) s = exec (.iosBlock t k) s ∧
      smp.digitalMask = k.digitalMask ∧ smp.analogMask = k.analogMask ∧ smp.power = k.power) ∧
  (∀ (c : Cfg) (t : IoType) (b : List Byte) (k : IoSample), iosDecode c t b = some k →
    (∀ extra, iosDecode c t (b ++ extra) = some k) ∧
    (∀ n, n < 5 ∨ n < blockNeed (nsampPresent c t) k.digitalMask k.analogMask →
      iosDecode c t (b.take n) = none))

/-- IOS_POWER (R273; that "not applicable" means a sample without the value is the spec's decision
D28). -/
def Obligations.IosPowerResult : Prop :=
  ∀ (k : IoSample) (s : State),
    (∀ v, k.power = some v →
      exec (.iosPower k) s = .next { s with codecOut := s.codecOut ++ [.power v] }) ∧
    (k.power = none → exec (.iosPower k) s =
      .next { s with codecOut := s.codecOut ++ [.failed .operationNotSupported] })

/-! ## Delivery, correlation, listener queue -/

/-- DELIVER (R286): the wait of the packet's frame ID ends with the packet when unit 5 exists (the spec's
decision D19), the ID is pending and its request has the packet's type as response family (R290, decision
D29 but for its first pair); otherwise the packet is queued, and a full queue loses its oldest (R302,
R304, decision D14). -/
def Obligations.DeliverResolvesOrQueues : Prop :=
  ∀ (s : State) (p : Packet),
    (∀ f, Resolves s f p → exec (.deliver p) s = .next (resolved f p s)) ∧
    ((∀ f, ¬ Resolves s f p) → exec (.deliver p) s = .next (queued p s))

/-- The 21 frame-type rows deliver the packet of their fields (log entry 11, the model's choice). A row
that is a request or an indication resolves no wait, so its packet is queued (R288, which the spec
derives). -/
def Obligations.FrameTypeRowsDeliverTheirPacket : Prop :=
  ∀ s : State,
    (∀ f, exec (.tx64 f) s = .next (queued (.tx64 f) s)) ∧
    (∀ f, exec (.tx16 f) s = .next (queued (.tx16 f) s)) ∧
    (∀ f, exec (.atCommand f) s = .next (queued (.atCommand f) s)) ∧
    (∀ f, exec (.atCommandQueue f) s = .next (queued (.atCommandQueue f) s)) ∧
    (∀ f, exec (.transmitRequest f) s = .next (queued (.transmitRequest f) s)) ∧
    (∀ f, exec (.explicitAddressing f) s = .next (queued (.explicitAddressing f) s)) ∧
    (∀ f, exec (.remoteAtCommand f) s = .next (queued (.remoteAtCommand f) s)) ∧
    (∀ f, exec (.rx64 f) s = .next (queued (.rx64 f) s)) ∧
    (∀ f, exec (.rx16 f) s = .next (queued (.rx16 f) s)) ∧
    (∀ f, exec (.rx64Io f) s = .next (queued (.rx64Io f) s)) ∧
    (∀ f, exec (.rx16Io f) s = .next (queued (.rx16Io f) s)) ∧
    (∀ f, exec (.modemStatus f) s = .next (queued (.modemStatus f) s)) ∧
    (∀ f, exec (.receivePacket f) s = .next (queued (.receivePacket f) s)) ∧
    (∀ f, exec (.explicitRxIndicator f) s = .next (queued (.explicitRxIndicator f) s)) ∧
    (∀ f, exec (.ioDataSampleRx f) s = .next (queued (.ioDataSampleRx f) s)) ∧
    (∀ f, exec (.deviceRequest f) s = .next (queued (.deviceRequest f) s)) ∧
    (∀ f, exec (.sendDataRequest f) s = .next (queued (.sendDataRequest f) s)) ∧
    (∀ f, exec (.atCommandResponse f) s = .next (delivered (.atCommandResponse f) s)) ∧
    (∀ f, exec (.txStatus f) s = .next (delivered (.txStatus f) s)) ∧
    (∀ f, exec (.transmitStatus f) s = .next (delivered (.transmitStatus f) s)) ∧
    (∀ f, exec (.remoteAtCommandResponse f) s = .next (delivered (.remoteAtCommandResponse f) s))

/-- The response-family relation (R290; all pairs but the first are the spec's decision D29). -/
def Obligations.ResponseFamilyTable : Prop :=
  ∀ (c : Cfg) (b : Byte), c.valid = true →
    respFamilyOf c b =
      if b = 0x08 ∨ b = 0x09 then some .atCommandResponse
      else if b = 0x17 then some .remoteAtCommandResponse
      else if b = 0x10 ∨ b = 0x11 then some .transmitStatus
      else if b = 0x00 ∨ b = 0x01 then some .txStatus
      else none

/-- First match wins (R287): after a packet has resolved a wait, a second packet with the same frame ID
finds nothing pending and is queued, where a full queue loses its oldest (R302, R304, the spec's decision
D14). -/
def Obligations.FirstMatchWins : Prop :=
  ∀ (s t : State) (p q : Packet) (f : Byte),
    Resolves s f p → packetFrameId q = some f → exec (.deliver p) s = .next t →
    exec (.deliver q) t = .next (queued q t) ∧ t.rspOut = s.rspOut ++ [.response f (decodedOf s.cfg p)]

/-- SEND (R291): a packet out of its ranges is an immediate error (R240, the spec's decisions D11 and
D35); otherwise SEND is TX_FRAME of the packet's payload, silent while closed (R194, decision D32), with
an error for a payload too long (R193, decision D6); `CORR` is never touched. The order of the tests
(R331) is decision D26. -/
def Obligations.SendOperationResult : Prop :=
  ∀ (s : State) (p : Packet),
    (inRange p = false → ∃ field value lo hi, exec (.send p) s =
      .next { s with reqOut := s.reqOut ++ [.outOfRange field value lo hi] }) ∧
    (inRange p = true →
      exec (.send p) s = exec (.txFrame (payloadOf s.cfg p)) s ∧
      (s.connOpen = false → exec (.send p) s = .next s) ∧
      (s.connOpen = true → (payloadOf s.cfg p).length ≤ 65535 → exec (.send p) s =
        .next { s with txOut := s.txOut ++ [wrap s.cfg.escaped (payloadOf s.cfg p)] }) ∧
      (s.connOpen = true → 65535 < (payloadOf s.cfg p).length → exec (.send p) s =
        .next { s with reqOut :=
          s.reqOut ++ [.outOfRange .length (payloadOf s.cfg p).length 0 65535] }))

/-- SEND_AND_WAIT in a build with unit 5 (R292, R285 with the spec's decision D19): its tests in the order
of R331 (decision D26), each of which leaves everything but its result as it was; then registration and
transmission in one step (R77). The errors are the spec's decisions: the ranges (R240) D11 and D35, the
length (R193) D6, a packet without a frame ID (R294) D15, the closed connection (R353) D32, the frame ID
in use (R295) D30. -/
def Obligations.SendAndWaitResult : Prop :=
  ∀ (s : State) (p : Packet), s.cfg.corrPresent = true →
    let n := (payloadOf s.cfg p).length
    (inRange p = false → ∃ field value lo hi, exec (.sendAndWait p) s =
      .next { s with reqOut := s.reqOut ++ [.outOfRange field value lo hi] }) ∧
    (inRange p = true → 65535 < n → exec (.sendAndWait p) s =
      .next { s with reqOut := s.reqOut ++ [.outOfRange .length n 0 65535] }) ∧
    (inRange p = true → n ≤ 65535 → packetFrameId p = none → exec (.sendAndWait p) s =
      .next { s with reqOut := s.reqOut ++ [.noPendingRequest] }) ∧
    (∀ f, inRange p = true → n ≤ 65535 → packetFrameId p = some f → s.connOpen = false →
      exec (.sendAndWait p) s = .next { s with reqOut := s.reqOut ++ [.connectionClosed none] }) ∧
    (∀ f, inRange p = true → n ≤ 65535 → packetFrameId p = some f → s.connOpen = true →
      (s.corrAt f).pending = true →
      exec (.sendAndWait p) s = .next { s with reqOut := s.reqOut ++ [.frameIdInUse f] }) ∧
    (∀ f, inRange p = true → n ≤ 65535 → packetFrameId p = some f → s.connOpen = true →
      (s.corrAt f).pending = false →
      exec (.sendAndWait p) s = .next { s with
        corr := s.corr.set f.toNat
          { pending := true, reqType := frameCode s.cfg (packetType p) } f.isLt,
        txOut := s.txOut ++ [wrap s.cfg.escaped (payloadOf s.cfg p)] })

/-- CORR_TIMEOUT and CORR_CANCEL in a build with unit 5 (R296, R298; the spec's decisions D16 and
D15). -/
def Obligations.TimeoutAndCancelResults : Prop :=
  ∀ (s : State) (f : Byte), s.cfg.corrPresent = true →
    ((s.corrAt f).pending = true →
      let corr := s.corr.set f.toNat { s.corrAt f with pending := false } f.isLt
      exec (.corrTimeout f) s =
        .next { s with corr := corr, rspOut := s.rspOut ++ [.failed (.timeout f)] } ∧
      exec (.corrCancel f) s = .next { s with corr := corr }) ∧
    ((s.corrAt f).pending = false →
      exec (.corrTimeout f) s = .next s ∧ exec (.corrCancel f) s = .next s)

/-- A build without unit 5 (R285, the spec's decision D19): DELIVER queues every packet, and the three
wait operations are not operations of the block, which the model says by refusing them (log entry
16). -/
def Obligations.BuildWithoutTheCorrelationUnit : Prop :=
  ∀ (s : State), s.cfg.corrPresent = false →
    (∀ p, exec (.deliver p) s = .next (queued p s)) ∧
    (∀ p, exec (.sendAndWait p) s = .refused .corrAbsent) ∧
    (∀ f, exec (.corrTimeout f) s = .refused .corrAbsent) ∧
    (∀ f, exec (.corrCancel f) s = .refused .corrAbsent)

/-- Exactly one outcome (R297), over every step from every state. A step adds at most one event that
ends the wait on `f`, and only when it is the step in which `pending` goes from 1 to 0; a wait that
ends without such an event was cancelled or forgotten by RESET; and only SEND_AND_WAIT starts one. -/
def Obligations.EveryWaitEndsOnce : Prop :=
  ∀ (s t : State) (f : Byte), step s = .next t →
    ∃ new, t.rspOut = s.rspOut ++ new ∧
      ((new.filter (endsWait f)).length =
        if (s.corrAt f).pending = true ∧ (t.corrAt f).pending = false ∧
          s.input.head? ≠ some (.event (.corrCancel f)) ∧ s.input.head? ≠ some (.event .reset)
        then 1 else 0) ∧
      ((s.corrAt f).pending = false → (t.corrAt f).pending = true →
        ∃ p, s.input.head? = some (.event (.sendAndWait p)) ∧ packetFrameId p = some f)

/-- LQ_POP (R305; that it is accepted while closed is the spec's decision D32). -/
def Obligations.PopTakesTheHead : Prop :=
  ∀ s : State,
    (s.lq = [] → exec .lqPop s = .next { s with pktOut := s.pktOut ++ [none] }) ∧
    (∀ d q, s.lq = d :: q →
      exec .lqPop s = .next { s with lq := q, pktOut := s.pktOut ++ [some d] })

/-! ## Errors -/

/-- The eleven error rows (R317, R332, R333, which the spec derives): the event on the port the table
names, with what it records; ChecksumError also returns the framer to AwaitingDelimiter, and the two
that end a wait clear its `pending` bit. That a row is the raising of its error is log entry 13. -/
def Obligations.ErrorRowsResults : Prop :=
  ∀ s : State,
    exec .checksumError s = .next { s with
      rx := { s.rx with state := .awaitingDelimiter }, evtOut := s.evtOut ++ [.checksumError] } ∧
    (∀ e i j, (e = .nullPayload ∧ i = .nullPayload .caller ∧ j = .nullPayload .receivePath) ∨
        (∃ m n, e = .incomplete m n ∧ i = .incomplete m n .caller ∧
          j = .incomplete m n .receivePath) ∨
        (∃ b, e = .unknownFrameType b ∧ i = .unknownFrameType b .caller ∧
          j = .unknownFrameType b .receivePath) →
      exec i s = .next { s with codecOut := s.codecOut ++ [.failed e] } ∧
      exec j s = .next { s with evtOut := s.evtOut ++ [e] }) ∧
    (∀ x y, exec (.wrongFrameType x y) s =
      .next { s with codecOut := s.codecOut ++ [.failed (.wrongFrameType x y)] }) ∧
    (∀ f v lo hi, exec (.outOfRange f v lo hi .codecCaller) s =
        .next { s with codecOut := s.codecOut ++ [.failed (.outOfRange f v lo hi)] } ∧
      exec (.outOfRange f v lo hi .txCaller) s =
        .next { s with reqOut := s.reqOut ++ [.outOfRange f v lo hi] }) ∧
    (∀ f, let corr := s.corr.set f.toNat { s.corrAt f with pending := false } f.isLt
      exec (.timeout f) s =
        .next { s with corr := corr, rspOut := s.rspOut ++ [.failed (.timeout f)] } ∧
      exec (.connectionClosed (some f)) s = .next { s with
        corr := corr, rspOut := s.rspOut ++ [.failed (.connectionClosed (some f))] }) ∧
    exec (.connectionClosed none) s =
      .next { s with reqOut := s.reqOut ++ [.connectionClosed none] } ∧
    exec .noPendingRequest s = .next { s with reqOut := s.reqOut ++ [.noPendingRequest] } ∧
    (∀ f, exec (.frameIdInUse f) s =
      .next { s with reqOut := s.reqOut ++ [.frameIdInUse f] }) ∧
    exec .operationNotSupported s =
      .next { s with codecOut := s.codecOut ++ [.failed .operationNotSupported] }

/-! ## Reset, close, configuration -/

/-- RESET (R350, the spec's decision D20), from any state; that `RX.buf` and `req_type` are left as
they are is the model's choice (log entries 4 and 5), and so is what it leaves at the ports (entry
19). -/
def Obligations.ResetOperationResult : Prop :=
  ∀ s : State, ∃ corr,
    exec .reset s = .next { s with
      connOpen := true,
      rx := { state := .awaitingDelimiter, esc := false, len := 0, cnt := 0, sum := 0,
              buf := s.rx.buf },
      corr := corr, lq := [] } ∧
    ∀ f : Byte,
      corr[f.toNat]'f.isLt = if s.cfg.corrPresent = true then { s.corrAt f with pending := false }
        else s.corrAt f

/-- The state after reset (R351, the spec's decision D20) for every configuration. The zero `req_type`
and the empty buffer are the model's choices (log entries 4 and 5). -/
def Obligations.StateAfterReset : Prop :=
  ∀ c : Cfg,
    (State.resetWith c).connOpen = true ∧
    (State.resetWith c).rx =
      { state := .awaitingDelimiter, esc := false, len := 0, cnt := 0, sum := 0, buf := [] } ∧
    (∀ f : Byte, (State.resetWith c).corrAt f = { pending := false, reqType := 0 }) ∧
    (State.resetWith c).lq = [] ∧ (State.resetWith c).cfg = c ∧
    State.reset = State.resetWith Cfg.initial

/-- CLOSE (R352, R299; the spec's decision D32): closed, hunting for a delimiter, every wait ended with
ConnectionClosed in increasing order of its frame ID, all else as it was; a second CLOSE does
nothing. -/
def Obligations.CloseOperationResult : Prop :=
  ∀ s : State,
    (s.connOpen = false → exec .close s = .next s) ∧
    (s.connOpen = true → ∃ (corr : Vector CorrEntry 256) (ids : List Byte),
      exec .close s = .next { s with
        connOpen := false, rx := { s.rx with state := .awaitingDelimiter, esc := false },
        corr := corr,
        rspOut := s.rspOut ++ ids.map (fun f => .failed (.connectionClosed (some f))) } ∧
      ids.Pairwise (· < ·) ∧
      (∀ f : Byte, f ∈ ids ↔ s.cfg.corrPresent = true ∧ (s.corrAt f).pending = true) ∧
      (∀ f : Byte, corr[f.toNat]'f.isLt =
        if s.cfg.corrPresent = true then { s.corrAt f with pending := false } else s.corrAt f))

/-- Behaviour while closed (R353, the spec's decision D32), in states that satisfy the invariants of
R352, for the operations that test `CONN.open`; the three wait operations exist only with unit 5 (R285,
decision D19). LQ_POP, the codec operations, CLOSE, RESET and the range error of SEND have statements
over all states, closed ones among them. -/
def Obligations.BehaviourWhileClosed : Prop :=
  ∀ s : State, s.connOpen = false → ClosedOk s →
    (∀ b i, i = .rxByte b ∨ i = .rawDelimiter ∨ i = .rawNoise b ∨ i = .rawEscapeMarker ∨
      i = .rawEscapedSecond b ∨ i = .rawLiteral b → exec i s = .next s) ∧
    (∀ p c, exec (.frame p c) s = .next s) ∧
    (∀ p, exec (.txFrame p) s = .next s) ∧
    (∀ p, inRange p = true → exec (.send p) s = .next s) ∧
    (s.cfg.corrPresent = true →
      (∀ p f, inRange p = true → (payloadOf s.cfg p).length ≤ 65535 → packetFrameId p = some f →
        exec (.sendAndWait p) s = .next { s with reqOut := s.reqOut ++ [.connectionClosed none] }) ∧
      (∀ f, exec (.corrTimeout f) s = .next s ∧ exec (.corrCancel f) s = .next s))

/-- The codec operations are pure (R70): each answers one result, which depends on its operands and the
construction parameters alone, and changes nothing else. -/
def Obligations.CodecOperationsArePure : Prop :=
  ∀ (c : Cfg) (i : Instr),
    (∃ p, i = .decodeFrame p) ∨ (∃ t p, i = .decodeAs t p) ∨ (∃ p, i = .encode p) ∨
      (∃ t b, i = .iosDecode t b) ∨ (∃ k, i = .iosPower k) ∨ (∃ p, i = .checksum p) ∨
      (∃ r, i = .escape r) ∨ (∃ e w, i = .unescape e w) →
    ∃ r : CodecResult, ∀ s : State, s.cfg = c →
      exec i s = .next { s with codecOut := s.codecOut ++ [r] }

/-- Ownership (R335, the spec's decision D27): over every step, only the receive path, RESET and CLOSE
write the RX registers; only CLOSE and RESET write `CONN.open`; only the three transmit operations
append to `TX_OUT`; `LQ` is written by the receive path, LQ_POP and RESET alone; and nothing writes the
configuration (R80, decision D23). -/
def Obligations.EachAgentWritesItsOwnState : Prop :=
  ∀ (s t : State), step s = .next t →
    t.cfg = s.cfg ∧
    (∀ it q, s.input = it :: q → t.input = q ∧
      (t.rx ≠ s.rx → isReceiveItem it = true ∨ it = .event .reset ∨ it = .event .close) ∧
      (t.connOpen ≠ s.connOpen → it = .event .reset ∨ it = .event .close) ∧
      (t.txOut ≠ s.txOut →
        ∃ p, it = .event (.txFrame p) ∨ (∃ k, it = .event (.send k) ∨ it = .event (.sendAndWait k))) ∧
      (t.lq ≠ s.lq → isReceiveItem it = true ∨ it = .event .lqPop ∨ it = .event .reset) ∧
      (t.corr ≠ s.corr → isReceiveItem it = true ∨ isWaitItem it = true ∨
        it = .event .reset ∨ it = .event .close))

/-- No statement about a run can depend on a register value the spec leaves unspecified (U2 of
`93_implementation_defined.md`): good states that differ only there step alike. -/
def Obligations.StaleRegistersAreUnobservable : Prop :=
  ∀ s s' : State, Inv s → Inv s' → SameView s s' →
    (∀ t, step s = .next t → ∃ t', step s' = .next t' ∧ SameView t t') ∧
    (∀ r, step s = .refused r → step s' = .refused r)

/-- The invariants of R26, R28, R285, R301 (b), R302 and R352, the canonical form of the buffer and the
ranges of R7 hold after every step from every state in which they hold. The spec derives R28 and
R301. -/
def Obligations.StepKeepsTheInvariants : Prop :=
  ∀ s t : State, Inv s → step s = .next t → Inv t

/-- The invariants hold after reset, for every configuration in the ranges of R7 and for the model's
own (log entry 3). -/
def Obligations.ResetSatisfiesTheInvariants : Prop :=
  (∀ c : Cfg, c.valid = true → Inv (State.resetWith c)) ∧ Inv State.reset

/-- Every input in every good state has a result (end of part 1 of `93_implementation_defined.md`):
nothing faults, and the one refusal is that of the three wait operations in a build without unit 5
(log entry 16). -/
def Obligations.EveryStepHasAResult : Prop :=
  ∀ s : State, Inv s →
    (∃ t, step s = .next t) ∨
    (s.cfg.corrPresent = false ∧ (∃ it q, s.input = it :: q ∧ isWaitItem it = true) ∧
      step s = .refused .corrAbsent)
end

