-- ==== Sys2Proof/Laws/Memory.lean ====
section
/-! SUPPORT. The receive buffer: reads after writes, and the canonical form that every operation
keeps. -/

namespace Sys2Proof.Machine

/-- A canonical buffer from `lo` on lists nothing below `lo`. -/
theorem Memory.read_below {m : Memory} {lo a : Nat} (h : Memory.wfFrom lo m = true) (ha : a < lo) :
    m.read a = bufUnlisted := by
  induction m generalizing lo with
  | nil => rfl
  | cons c m ih =>
    obtain ⟨k, v⟩ := c
    simp only [Memory.wfFrom, Bool.and_eq_true, decide_eq_true_eq] at h
    obtain ⟨⟨⟨hlo, -⟩, -⟩, hm⟩ := h
    rw [Memory.read, if_neg (by omega), ih hm (by omega)]

/-- Canonical from `hi` on and nothing below is canonical from any smaller bound. -/
theorem Memory.wfFrom_mono {m : Memory} {lo hi : Nat} (h : Memory.wfFrom hi m = true)
    (hle : lo ≤ hi) : Memory.wfFrom lo m = true := by
  cases m with
  | nil => rfl
  | cons c m =>
    obtain ⟨k, v⟩ := c
    simp only [Memory.wfFrom, Bool.and_eq_true, decide_eq_true_eq] at h ⊢
    exact ⟨⟨⟨by omega, h.1.1.2⟩, h.1.2⟩, h.2⟩

/-- Writing at an existing index keeps the canonical form. -/
theorem Memory.write_wfFrom {m : Memory} {lo a : Nat} {b : Byte}
    (h : Memory.wfFrom lo m = true) (hlo : lo ≤ a) (ha : a < bufSize) :
    Memory.wfFrom lo (m.write a b) = true := by
  induction m generalizing lo with
  | nil =>
    unfold Memory.write
    split
    · rfl
    · simp_all [Memory.wfFrom]
  | cons c m ih =>
    obtain ⟨k, v⟩ := c
    have h' := h
    simp only [Memory.wfFrom, Bool.and_eq_true, decide_eq_true_eq] at h'
    obtain ⟨⟨⟨hk, hks⟩, hv⟩, hm⟩ := h'
    unfold Memory.write
    split
    · split
      · exact h
      · simp_all [Memory.wfFrom]
    · split
      · subst a
        split
        · exact Memory.wfFrom_mono hm (by omega)
        · simp_all [Memory.wfFrom]
      · simp only [Memory.wfFrom, Bool.and_eq_true, decide_eq_true_eq]
        exact ⟨⟨⟨hk, hks⟩, hv⟩, ih hm (by omega)⟩

/-- Writing at an existing index keeps the canonical form of the whole buffer. -/
theorem Memory.write_wf {m : Memory} {a : Nat} {b : Byte} (h : m.wf = true) (ha : a < bufSize) :
    (m.write a b).wf = true :=
  Memory.write_wfFrom h (Nat.zero_le a) ha

/-- The empty buffer is canonical. -/
theorem Memory.nil_wf : Memory.wf [] = true := rfl

/-- A read after a write, on a buffer that is canonical from `lo` on. -/
theorem Memory.read_write_from {m : Memory} {lo a c : Nat} {b : Byte}
    (h : Memory.wfFrom lo m = true) (hlo : lo ≤ a) :
    (m.write a b).read c = if a = c then b else m.read c := by
  induction m generalizing lo with
  | nil =>
    unfold Memory.write
    split <;> split <;> simp_all [Memory.read]
  | cons x m ih =>
    obtain ⟨k, v⟩ := x
    simp only [Memory.wfFrom, Bool.and_eq_true, decide_eq_true_eq] at h
    obtain ⟨⟨⟨hk, hks⟩, hv⟩, hm⟩ := h
    unfold Memory.write
    split
    · have hbelow : Memory.read m a = bufUnlisted := Memory.read_below hm (by omega)
      by_cases hac : a = c
      · subst hac
        split
        · rw [Memory.read, if_neg (by omega), hbelow, if_pos rfl]
          exact Eq.symm ‹_›
        · simp [Memory.read]
      · rw [if_neg hac]
        split
        · rfl
        · rw [Memory.read, if_neg hac]
    · split
      · subst a
        have hbelow : Memory.read m k = bufUnlisted := Memory.read_below hm (by omega)
        by_cases hkc : k = c
        · subst hkc
          split
          · rw [hbelow, if_pos rfl]
            exact Eq.symm ‹_›
          · simp [Memory.read]
        · split <;> simp [Memory.read, hkc]
      · rw [Memory.read, Memory.read, ih hm (by omega)]
        by_cases hkc : k = c
        · subst hkc
          rw [if_pos rfl, if_pos rfl, if_neg (by omega)]
        · rw [if_neg hkc, if_neg hkc]

/-- A read after a write: the byte written there, every other byte as before. -/
theorem Memory.read_write {m : Memory} {a c : Nat} {b : Byte} (h : m.wf = true) :
    (m.write a b).read c = if a = c then b else m.read c :=
  Memory.read_write_from h (Nat.zero_le a)

/-- The length of a slice. -/
@[simp] theorem Memory.slice_length (m : Memory) (n : Nat) : (m.slice n).length = n := by
  simp [Memory.slice]

/-- An empty slice. -/
@[simp] theorem Memory.slice_zero (m : Memory) : m.slice 0 = [] := rfl

/-- A slice grows by the byte at its end. -/
theorem Memory.slice_succ (m : Memory) (n : Nat) : m.slice (n + 1) = m.slice n ++ [m.read n] := by
  simp [Memory.slice, List.range_succ]

/-- The slice after the byte at its end has been written. -/
theorem Memory.slice_write {m : Memory} {n : Nat} {b : Byte} (h : m.wf = true) :
    (m.write n b).slice (n + 1) = m.slice n ++ [b] := by
  rw [Memory.slice_succ, Memory.read_write h, if_pos rfl]
  congr 1
  refine List.map_congr_left fun a ha => ?_
  rw [Memory.read_write h, if_neg (by have := List.mem_range.mp ha; omega)]

end Sys2Proof.Machine
end

