-- ==== Sys2Proof/Laws/Operands.lean ====
section
/-! SUPPORT. Operand assembly and its inverse: big-endian numbers, trailing regions, byte sums and
the transforms on single bytes. -/

namespace Sys2Proof.Machine

/-- Assembly of a sequence split at any place. -/
theorem beOf_append (a b : List Byte) : beOf (a ++ b) = beOf a * 256 ^ b.length + beOf b := by
  induction b using List.reverseRecOn with
  | nil => simp [beOf]
  | append_singleton b x ih =>
    have step : ∀ l : List Byte, beOf (l ++ [x]) = beOf l * 256 + x.toNat := by
      intro l
      simp [beOf]
    rw [← List.append_assoc, step, step, ih]
    simp [pow_succ]
    ring

/-- Assembly with the most significant byte first. -/
theorem beOf_cons (x : Byte) (b : List Byte) :
    beOf (x :: b) = x.toNat * 256 ^ b.length + beOf b := by
  have := beOf_append [x] b
  simpa [beOf] using this

/-- The length of a big-endian form. -/
@[simp] theorem bytesN_length (n v : Nat) : (bytesN n v).length = n := by
  induction n with
  | zero => rfl
  | succ n ih => simp [bytesN, ih]

@[simp] theorem bytes2_length (v : U16) : (bytes2 v).length = 2 := bytesN_length 2 _
@[simp] theorem bytes8_length (v : U64) : (bytes8 v).length = 8 := bytesN_length 8 _

/-- Reading back a big-endian form: the number modulo its width. -/
theorem beOf_bytesN (n v : Nat) : beOf (bytesN n v) = v % 256 ^ n := by
  induction n with
  | zero => simp [bytesN, beOf, Nat.mod_one]
  | succ n ih =>
    have h := Nat.mod_mul (x := v) (a := 256 ^ n) (b := 256)
    rw [← pow_succ] at h
    rw [bytesN, beOf_cons, ih, bytesN_length, BitVec.toNat_ofNat, h, Nat.mul_comm, Nat.add_comm]

/-- Reading back `bytes2`. -/
@[simp] theorem ofNat_beOf_bytes2 (v : U16) : BitVec.ofNat 16 (beOf (bytes2 v)) = v := by
  rw [bytes2, beOf_bytesN]
  apply BitVec.eq_of_toNat_eq
  simpa using v.isLt

/-- Reading back `bytes8`. -/
@[simp] theorem ofNat_beOf_bytes8 (v : U64) : BitVec.ofNat 64 (beOf (bytes8 v)) = v := by
  rw [bytes8, beOf_bytesN]
  apply BitVec.eq_of_toNat_eq
  simpa using v.isLt

/-- The trailing region of a payload whose fixed part is `a`. -/
theorem trailing_append (a t : List Byte) :
    trailing (a ++ t) a.length = if t = [] then none else some t := by
  cases t <;> simp [trailing]

/-- The sum of a sequence grows by its last byte. -/
@[simp] theorem byteSum_append_singleton (p : List Byte) (b : Byte) :
    byteSum (p ++ [b]) = byteSum p + b := by
  simp [byteSum]

@[simp] theorem byteSum_nil : byteSum [] = 0 := rfl

/-- The checksum byte is the one the verdict of R142 accepts. -/
theorem checksumOk_iff (sum c : Byte) : checksumOk sum c = true ↔ c = 0xFF - sum := by
  simp only [checksumOk, beq_iff_eq]
  constructor <;> intro h <;> bv_omega

@[simp] theorem escape_nil : escape [] = [] := rfl

@[simp] theorem escape_cons (b : Byte) (r : List Byte) :
    escape (b :: r) = escapeByte b ++ escape r := rfl

@[simp] theorem unescapeFrom_nil (e : Bool) : unescapeFrom e [] = ([], e) := rfl

/-- One byte of UNESCAPE_FROM, then the rest. -/
theorem unescapeFrom_cons (e : Bool) (b : Byte) (w : List Byte) :
    unescapeFrom e (b :: w) =
      ((unescapeByte e b).2.toList ++ (unescapeFrom (unescapeByte e b).1 w).1,
        (unescapeFrom (unescapeByte e b).1 w).2) := rfl

/-- Everything one iteration of UNESCAPE_FROM can do (R148). -/
theorem unescapeByte_cases (e : Bool) (b : Byte) :
    (e = true ∧ unescapeByte e b = (false, some (b ^^^ 0x20))) ∨
    (e = false ∧ b = 0x7D ∧ unescapeByte e b = (true, none)) ∨
    (e = false ∧ b ≠ 0x7D ∧ unescapeByte e b = (false, some b)) := by
  cases e
  · rcases eq_or_ne b 0x7D with h | h
    · simp [unescapeByte, h]
    · exact .inr (.inr ⟨rfl, h, if_neg h⟩)
  · simp [unescapeByte]

/-- The escape mask applied twice gives the byte back (R145). -/
@[simp] theorem xor_mask_twice (b : Byte) : b ^^^ 0x20 ^^^ 0x20 = b := by
  rw [BitVec.xor_assoc]
  simp

end Sys2Proof.Machine
end

