-- ==== Sys2Proof/Laws/State.lean ====
section
/-! SUPPORT. One lemma per field per state update, all true by unfolding, so that no proof unfolds a
record update. -/

namespace Sys2Proof.Machine

section

variable (r : Rx) (s : State)

@[simp] theorem setRx_cfg : (s.setRx r).cfg = s.cfg := rfl
@[simp] theorem setRx_connOpen : (s.setRx r).connOpen = s.connOpen := rfl
@[simp] theorem setRx_rx : (s.setRx r).rx = r := rfl
@[simp] theorem setRx_corr : (s.setRx r).corr = s.corr := rfl
@[simp] theorem setRx_lq : (s.setRx r).lq = s.lq := rfl
@[simp] theorem setRx_txOut : (s.setRx r).txOut = s.txOut := rfl
@[simp] theorem setRx_frameOut : (s.setRx r).frameOut = s.frameOut := rfl
@[simp] theorem setRx_pktOut : (s.setRx r).pktOut = s.pktOut := rfl
@[simp] theorem setRx_rspOut : (s.setRx r).rspOut = s.rspOut := rfl
@[simp] theorem setRx_evtOut : (s.setRx r).evtOut = s.evtOut := rfl
@[simp] theorem setRx_reqOut : (s.setRx r).reqOut = s.reqOut := rfl
@[simp] theorem setRx_codecOut : (s.setRx r).codecOut = s.codecOut := rfl
@[simp] theorem setRx_input : (s.setRx r).input = s.input := rfl
@[simp] theorem setRx_corrAt (g : Byte) : (s.setRx r).corrAt g = s.corrAt g := rfl

end

section

variable (b : Bool) (s : State)

@[simp] theorem setOpen_cfg : (s.setOpen b).cfg = s.cfg := rfl
@[simp] theorem setOpen_connOpen : (s.setOpen b).connOpen = b := rfl
@[simp] theorem setOpen_rx : (s.setOpen b).rx = s.rx := rfl
@[simp] theorem setOpen_corr : (s.setOpen b).corr = s.corr := rfl
@[simp] theorem setOpen_lq : (s.setOpen b).lq = s.lq := rfl
@[simp] theorem setOpen_txOut : (s.setOpen b).txOut = s.txOut := rfl
@[simp] theorem setOpen_frameOut : (s.setOpen b).frameOut = s.frameOut := rfl
@[simp] theorem setOpen_pktOut : (s.setOpen b).pktOut = s.pktOut := rfl
@[simp] theorem setOpen_rspOut : (s.setOpen b).rspOut = s.rspOut := rfl
@[simp] theorem setOpen_evtOut : (s.setOpen b).evtOut = s.evtOut := rfl
@[simp] theorem setOpen_reqOut : (s.setOpen b).reqOut = s.reqOut := rfl
@[simp] theorem setOpen_codecOut : (s.setOpen b).codecOut = s.codecOut := rfl
@[simp] theorem setOpen_input : (s.setOpen b).input = s.input := rfl
@[simp] theorem setOpen_corrAt (g : Byte) : (s.setOpen b).corrAt g = s.corrAt g := rfl

end

section

variable (v : Vector CorrEntry 256) (s : State)

@[simp] theorem setCorr_cfg : (s.setCorr v).cfg = s.cfg := rfl
@[simp] theorem setCorr_connOpen : (s.setCorr v).connOpen = s.connOpen := rfl
@[simp] theorem setCorr_rx : (s.setCorr v).rx = s.rx := rfl
@[simp] theorem setCorr_corr : (s.setCorr v).corr = v := rfl
@[simp] theorem setCorr_lq : (s.setCorr v).lq = s.lq := rfl
@[simp] theorem setCorr_txOut : (s.setCorr v).txOut = s.txOut := rfl
@[simp] theorem setCorr_frameOut : (s.setCorr v).frameOut = s.frameOut := rfl
@[simp] theorem setCorr_pktOut : (s.setCorr v).pktOut = s.pktOut := rfl
@[simp] theorem setCorr_rspOut : (s.setCorr v).rspOut = s.rspOut := rfl
@[simp] theorem setCorr_evtOut : (s.setCorr v).evtOut = s.evtOut := rfl
@[simp] theorem setCorr_reqOut : (s.setCorr v).reqOut = s.reqOut := rfl
@[simp] theorem setCorr_codecOut : (s.setCorr v).codecOut = s.codecOut := rfl
@[simp] theorem setCorr_input : (s.setCorr v).input = s.input := rfl

end

section

variable (q : List Decoded) (s : State)

@[simp] theorem setLq_cfg : (s.setLq q).cfg = s.cfg := rfl
@[simp] theorem setLq_connOpen : (s.setLq q).connOpen = s.connOpen := rfl
@[simp] theorem setLq_rx : (s.setLq q).rx = s.rx := rfl
@[simp] theorem setLq_corr : (s.setLq q).corr = s.corr := rfl
@[simp] theorem setLq_lq : (s.setLq q).lq = q := rfl
@[simp] theorem setLq_txOut : (s.setLq q).txOut = s.txOut := rfl
@[simp] theorem setLq_frameOut : (s.setLq q).frameOut = s.frameOut := rfl
@[simp] theorem setLq_pktOut : (s.setLq q).pktOut = s.pktOut := rfl
@[simp] theorem setLq_rspOut : (s.setLq q).rspOut = s.rspOut := rfl
@[simp] theorem setLq_evtOut : (s.setLq q).evtOut = s.evtOut := rfl
@[simp] theorem setLq_reqOut : (s.setLq q).reqOut = s.reqOut := rfl
@[simp] theorem setLq_codecOut : (s.setLq q).codecOut = s.codecOut := rfl
@[simp] theorem setLq_input : (s.setLq q).input = s.input := rfl
@[simp] theorem setLq_corrAt (g : Byte) : (s.setLq q).corrAt g = s.corrAt g := rfl

end

section

variable (q : List Item) (s : State)

@[simp] theorem setInput_cfg : (s.setInput q).cfg = s.cfg := rfl
@[simp] theorem setInput_connOpen : (s.setInput q).connOpen = s.connOpen := rfl
@[simp] theorem setInput_rx : (s.setInput q).rx = s.rx := rfl
@[simp] theorem setInput_corr : (s.setInput q).corr = s.corr := rfl
@[simp] theorem setInput_lq : (s.setInput q).lq = s.lq := rfl
@[simp] theorem setInput_txOut : (s.setInput q).txOut = s.txOut := rfl
@[simp] theorem setInput_frameOut : (s.setInput q).frameOut = s.frameOut := rfl
@[simp] theorem setInput_pktOut : (s.setInput q).pktOut = s.pktOut := rfl
@[simp] theorem setInput_rspOut : (s.setInput q).rspOut = s.rspOut := rfl
@[simp] theorem setInput_evtOut : (s.setInput q).evtOut = s.evtOut := rfl
@[simp] theorem setInput_reqOut : (s.setInput q).reqOut = s.reqOut := rfl
@[simp] theorem setInput_codecOut : (s.setInput q).codecOut = s.codecOut := rfl
@[simp] theorem setInput_input : (s.setInput q).input = q := rfl
@[simp] theorem setInput_corrAt (g : Byte) : (s.setInput q).corrAt g = s.corrAt g := rfl

end

section

variable (f : List Byte) (s : State)

@[simp] theorem pushTx_cfg : (s.pushTx f).cfg = s.cfg := rfl
@[simp] theorem pushTx_connOpen : (s.pushTx f).connOpen = s.connOpen := rfl
@[simp] theorem pushTx_rx : (s.pushTx f).rx = s.rx := rfl
@[simp] theorem pushTx_corr : (s.pushTx f).corr = s.corr := rfl
@[simp] theorem pushTx_lq : (s.pushTx f).lq = s.lq := rfl
@[simp] theorem pushTx_txOut : (s.pushTx f).txOut = s.txOut ++ [f] := rfl
@[simp] theorem pushTx_frameOut : (s.pushTx f).frameOut = s.frameOut := rfl
@[simp] theorem pushTx_pktOut : (s.pushTx f).pktOut = s.pktOut := rfl
@[simp] theorem pushTx_rspOut : (s.pushTx f).rspOut = s.rspOut := rfl
@[simp] theorem pushTx_evtOut : (s.pushTx f).evtOut = s.evtOut := rfl
@[simp] theorem pushTx_reqOut : (s.pushTx f).reqOut = s.reqOut := rfl
@[simp] theorem pushTx_codecOut : (s.pushTx f).codecOut = s.codecOut := rfl
@[simp] theorem pushTx_input : (s.pushTx f).input = s.input := rfl
@[simp] theorem pushTx_corrAt (g : Byte) : (s.pushTx f).corrAt g = s.corrAt g := rfl

end

section

variable (p : List Byte) (s : State)

@[simp] theorem pushFrame_cfg : (s.pushFrame p).cfg = s.cfg := rfl
@[simp] theorem pushFrame_connOpen : (s.pushFrame p).connOpen = s.connOpen := rfl
@[simp] theorem pushFrame_rx : (s.pushFrame p).rx = s.rx := rfl
@[simp] theorem pushFrame_corr : (s.pushFrame p).corr = s.corr := rfl
@[simp] theorem pushFrame_lq : (s.pushFrame p).lq = s.lq := rfl
@[simp] theorem pushFrame_txOut : (s.pushFrame p).txOut = s.txOut := rfl
@[simp] theorem pushFrame_frameOut : (s.pushFrame p).frameOut = s.frameOut ++ [p] := rfl
@[simp] theorem pushFrame_pktOut : (s.pushFrame p).pktOut = s.pktOut := rfl
@[simp] theorem pushFrame_rspOut : (s.pushFrame p).rspOut = s.rspOut := rfl
@[simp] theorem pushFrame_evtOut : (s.pushFrame p).evtOut = s.evtOut := rfl
@[simp] theorem pushFrame_reqOut : (s.pushFrame p).reqOut = s.reqOut := rfl
@[simp] theorem pushFrame_codecOut : (s.pushFrame p).codecOut = s.codecOut := rfl
@[simp] theorem pushFrame_input : (s.pushFrame p).input = s.input := rfl
@[simp] theorem pushFrame_corrAt (g : Byte) : (s.pushFrame p).corrAt g = s.corrAt g := rfl

end

section

variable (r : Option Decoded) (s : State)

@[simp] theorem pushPkt_cfg : (s.pushPkt r).cfg = s.cfg := rfl
@[simp] theorem pushPkt_connOpen : (s.pushPkt r).connOpen = s.connOpen := rfl
@[simp] theorem pushPkt_rx : (s.pushPkt r).rx = s.rx := rfl
@[simp] theorem pushPkt_corr : (s.pushPkt r).corr = s.corr := rfl
@[simp] theorem pushPkt_lq : (s.pushPkt r).lq = s.lq := rfl
@[simp] theorem pushPkt_txOut : (s.pushPkt r).txOut = s.txOut := rfl
@[simp] theorem pushPkt_frameOut : (s.pushPkt r).frameOut = s.frameOut := rfl
@[simp] theorem pushPkt_pktOut : (s.pushPkt r).pktOut = s.pktOut ++ [r] := rfl
@[simp] theorem pushPkt_rspOut : (s.pushPkt r).rspOut = s.rspOut := rfl
@[simp] theorem pushPkt_evtOut : (s.pushPkt r).evtOut = s.evtOut := rfl
@[simp] theorem pushPkt_reqOut : (s.pushPkt r).reqOut = s.reqOut := rfl
@[simp] theorem pushPkt_codecOut : (s.pushPkt r).codecOut = s.codecOut := rfl
@[simp] theorem pushPkt_input : (s.pushPkt r).input = s.input := rfl
@[simp] theorem pushPkt_corrAt (g : Byte) : (s.pushPkt r).corrAt g = s.corrAt g := rfl

end

section

variable (r : RspEvent) (s : State)

@[simp] theorem pushRsp_cfg : (s.pushRsp r).cfg = s.cfg := rfl
@[simp] theorem pushRsp_connOpen : (s.pushRsp r).connOpen = s.connOpen := rfl
@[simp] theorem pushRsp_rx : (s.pushRsp r).rx = s.rx := rfl
@[simp] theorem pushRsp_corr : (s.pushRsp r).corr = s.corr := rfl
@[simp] theorem pushRsp_lq : (s.pushRsp r).lq = s.lq := rfl
@[simp] theorem pushRsp_txOut : (s.pushRsp r).txOut = s.txOut := rfl
@[simp] theorem pushRsp_frameOut : (s.pushRsp r).frameOut = s.frameOut := rfl
@[simp] theorem pushRsp_pktOut : (s.pushRsp r).pktOut = s.pktOut := rfl
@[simp] theorem pushRsp_rspOut : (s.pushRsp r).rspOut = s.rspOut ++ [r] := rfl
@[simp] theorem pushRsp_evtOut : (s.pushRsp r).evtOut = s.evtOut := rfl
@[simp] theorem pushRsp_reqOut : (s.pushRsp r).reqOut = s.reqOut := rfl
@[simp] theorem pushRsp_codecOut : (s.pushRsp r).codecOut = s.codecOut := rfl
@[simp] theorem pushRsp_input : (s.pushRsp r).input = s.input := rfl
@[simp] theorem pushRsp_corrAt (g : Byte) : (s.pushRsp r).corrAt g = s.corrAt g := rfl

end

section

variable (e : ErrorEvent) (s : State)

@[simp] theorem pushEvt_cfg : (s.pushEvt e).cfg = s.cfg := rfl
@[simp] theorem pushEvt_connOpen : (s.pushEvt e).connOpen = s.connOpen := rfl
@[simp] theorem pushEvt_rx : (s.pushEvt e).rx = s.rx := rfl
@[simp] theorem pushEvt_corr : (s.pushEvt e).corr = s.corr := rfl
@[simp] theorem pushEvt_lq : (s.pushEvt e).lq = s.lq := rfl
@[simp] theorem pushEvt_txOut : (s.pushEvt e).txOut = s.txOut := rfl
@[simp] theorem pushEvt_frameOut : (s.pushEvt e).frameOut = s.frameOut := rfl
@[simp] theorem pushEvt_pktOut : (s.pushEvt e).pktOut = s.pktOut := rfl
@[simp] theorem pushEvt_rspOut : (s.pushEvt e).rspOut = s.rspOut := rfl
@[simp] theorem pushEvt_evtOut : (s.pushEvt e).evtOut = s.evtOut ++ [e] := rfl
@[simp] theorem pushEvt_reqOut : (s.pushEvt e).reqOut = s.reqOut := rfl
@[simp] theorem pushEvt_codecOut : (s.pushEvt e).codecOut = s.codecOut := rfl
@[simp] theorem pushEvt_input : (s.pushEvt e).input = s.input := rfl
@[simp] theorem pushEvt_corrAt (g : Byte) : (s.pushEvt e).corrAt g = s.corrAt g := rfl

end

section

variable (e : ErrorEvent) (s : State)

@[simp] theorem pushReq_cfg : (s.pushReq e).cfg = s.cfg := rfl
@[simp] theorem pushReq_connOpen : (s.pushReq e).connOpen = s.connOpen := rfl
@[simp] theorem pushReq_rx : (s.pushReq e).rx = s.rx := rfl
@[simp] theorem pushReq_corr : (s.pushReq e).corr = s.corr := rfl
@[simp] theorem pushReq_lq : (s.pushReq e).lq = s.lq := rfl
@[simp] theorem pushReq_txOut : (s.pushReq e).txOut = s.txOut := rfl
@[simp] theorem pushReq_frameOut : (s.pushReq e).frameOut = s.frameOut := rfl
@[simp] theorem pushReq_pktOut : (s.pushReq e).pktOut = s.pktOut := rfl
@[simp] theorem pushReq_rspOut : (s.pushReq e).rspOut = s.rspOut := rfl
@[simp] theorem pushReq_evtOut : (s.pushReq e).evtOut = s.evtOut := rfl
@[simp] theorem pushReq_reqOut : (s.pushReq e).reqOut = s.reqOut ++ [e] := rfl
@[simp] theorem pushReq_codecOut : (s.pushReq e).codecOut = s.codecOut := rfl
@[simp] theorem pushReq_input : (s.pushReq e).input = s.input := rfl
@[simp] theorem pushReq_corrAt (g : Byte) : (s.pushReq e).corrAt g = s.corrAt g := rfl

end

section

variable (r : CodecResult) (s : State)

@[simp] theorem pushCodec_cfg : (s.pushCodec r).cfg = s.cfg := rfl
@[simp] theorem pushCodec_connOpen : (s.pushCodec r).connOpen = s.connOpen := rfl
@[simp] theorem pushCodec_rx : (s.pushCodec r).rx = s.rx := rfl
@[simp] theorem pushCodec_corr : (s.pushCodec r).corr = s.corr := rfl
@[simp] theorem pushCodec_lq : (s.pushCodec r).lq = s.lq := rfl
@[simp] theorem pushCodec_txOut : (s.pushCodec r).txOut = s.txOut := rfl
@[simp] theorem pushCodec_frameOut : (s.pushCodec r).frameOut = s.frameOut := rfl
@[simp] theorem pushCodec_pktOut : (s.pushCodec r).pktOut = s.pktOut := rfl
@[simp] theorem pushCodec_rspOut : (s.pushCodec r).rspOut = s.rspOut := rfl
@[simp] theorem pushCodec_evtOut : (s.pushCodec r).evtOut = s.evtOut := rfl
@[simp] theorem pushCodec_reqOut : (s.pushCodec r).reqOut = s.reqOut := rfl
@[simp] theorem pushCodec_codecOut : (s.pushCodec r).codecOut = s.codecOut ++ [r] := rfl
@[simp] theorem pushCodec_input : (s.pushCodec r).input = s.input := rfl
@[simp] theorem pushCodec_corrAt (g : Byte) : (s.pushCodec r).corrAt g = s.corrAt g := rfl

end

section

variable (f : Byte) (e : CorrEntry) (s : State)

@[simp] theorem setCorrAt_cfg : (s.setCorrAt f e).cfg = s.cfg := rfl
@[simp] theorem setCorrAt_connOpen : (s.setCorrAt f e).connOpen = s.connOpen := rfl
@[simp] theorem setCorrAt_rx : (s.setCorrAt f e).rx = s.rx := rfl
@[simp] theorem setCorrAt_lq : (s.setCorrAt f e).lq = s.lq := rfl
@[simp] theorem setCorrAt_txOut : (s.setCorrAt f e).txOut = s.txOut := rfl
@[simp] theorem setCorrAt_frameOut : (s.setCorrAt f e).frameOut = s.frameOut := rfl
@[simp] theorem setCorrAt_pktOut : (s.setCorrAt f e).pktOut = s.pktOut := rfl
@[simp] theorem setCorrAt_rspOut : (s.setCorrAt f e).rspOut = s.rspOut := rfl
@[simp] theorem setCorrAt_evtOut : (s.setCorrAt f e).evtOut = s.evtOut := rfl
@[simp] theorem setCorrAt_reqOut : (s.setCorrAt f e).reqOut = s.reqOut := rfl
@[simp] theorem setCorrAt_codecOut : (s.setCorrAt f e).codecOut = s.codecOut := rfl
@[simp] theorem setCorrAt_input : (s.setCorrAt f e).input = s.input := rfl

end

section

variable (f : Byte) (s : State)

@[simp] theorem clearPending_cfg : (s.clearPending f).cfg = s.cfg := rfl
@[simp] theorem clearPending_connOpen : (s.clearPending f).connOpen = s.connOpen := rfl
@[simp] theorem clearPending_rx : (s.clearPending f).rx = s.rx := rfl
@[simp] theorem clearPending_lq : (s.clearPending f).lq = s.lq := rfl
@[simp] theorem clearPending_txOut : (s.clearPending f).txOut = s.txOut := rfl
@[simp] theorem clearPending_frameOut : (s.clearPending f).frameOut = s.frameOut := rfl
@[simp] theorem clearPending_pktOut : (s.clearPending f).pktOut = s.pktOut := rfl
@[simp] theorem clearPending_rspOut : (s.clearPending f).rspOut = s.rspOut := rfl
@[simp] theorem clearPending_evtOut : (s.clearPending f).evtOut = s.evtOut := rfl
@[simp] theorem clearPending_reqOut : (s.clearPending f).reqOut = s.reqOut := rfl
@[simp] theorem clearPending_codecOut : (s.clearPending f).codecOut = s.codecOut := rfl
@[simp] theorem clearPending_input : (s.clearPending f).input = s.input := rfl

end

/-- Reading the correlation table after writing one entry. -/
@[simp] theorem setCorrAt_corrAt (f g : Byte) (e : CorrEntry) (s : State) :
    (s.setCorrAt f e).corrAt g = if f = g then e else s.corrAt g := by
  simp [State.setCorrAt, State.corrAt, Vector.getElem_set, BitVec.toNat_inj]

/-- Reading the correlation table after clearing one pending bit. -/
@[simp] theorem clearPending_corrAt (f g : Byte) (s : State) :
    (s.clearPending f).corrAt g =
      if f = g then { s.corrAt f with pending := false } else s.corrAt g := by
  simp [State.clearPending]

/-- Two correlation tables with the same entries are equal. -/
theorem corr_ext {s t : State} (h : ∀ f : Byte, s.corrAt f = t.corrAt f) : s.corr = t.corr := by
  refine Vector.ext fun i hi => ?_
  have := h (BitVec.ofNat 8 i)
  simpa [State.corrAt, Nat.mod_eq_of_lt hi] using this

/-- Two states with the same fields are equal. -/
theorem state_ext {s t : State} (hcfg : s.cfg = t.cfg) (hopen : s.connOpen = t.connOpen)
    (hrx : s.rx = t.rx) (hcorr : s.corr = t.corr) (hlq : s.lq = t.lq) (htx : s.txOut = t.txOut)
    (hframe : s.frameOut = t.frameOut) (hpkt : s.pktOut = t.pktOut) (hrsp : s.rspOut = t.rspOut)
    (hevt : s.evtOut = t.evtOut) (hreq : s.reqOut = t.reqOut) (hcodec : s.codecOut = t.codecOut)
    (hinput : s.input = t.input) : s = t := by
  cases s; cases t; simp_all

/-- The entry of a frame ID after every pending bit is cleared. -/
theorem clearAll_get (v : Vector CorrEntry 256) (i : Nat) (hi : i < 256) :
    (clearAll v)[i] = { v[i] with pending := false } := by
  simp [clearAll]

end Sys2Proof.Machine
end

