-- ==== Sys2Proof/Laws/Ops.lean ====
section
/-! SUPPORT. For each shared operation, once, everything it can do. -/

namespace Sys2Proof.Machine

/-! ## Raising an error -/

section
variable (k : Sink) (e : ErrorEvent) (s : State)

@[simp] theorem raise_cfg : (raise k e s).cfg = s.cfg := by cases k <;> rfl
@[simp] theorem raise_connOpen : (raise k e s).connOpen = s.connOpen := by cases k <;> rfl
@[simp] theorem raise_rx : (raise k e s).rx = s.rx := by cases k <;> rfl
@[simp] theorem raise_corr : (raise k e s).corr = s.corr := by cases k <;> rfl
@[simp] theorem raise_corrAt (f : Byte) : (raise k e s).corrAt f = s.corrAt f := by cases k <;> rfl
@[simp] theorem raise_lq : (raise k e s).lq = s.lq := by cases k <;> rfl
@[simp] theorem raise_txOut : (raise k e s).txOut = s.txOut := by cases k <;> rfl
@[simp] theorem raise_frameOut : (raise k e s).frameOut = s.frameOut := by cases k <;> rfl
@[simp] theorem raise_pktOut : (raise k e s).pktOut = s.pktOut := by cases k <;> rfl
@[simp] theorem raise_input : (raise k e s).input = s.input := by cases k <;> rfl

end

/-! ## Listener queue and correlation table -/

/-- A push never exceeds the capacity (R302). -/
theorem lqPush_length_le {depth : Nat} {q : List Decoded} {d : Decoded} (hd : 1 ≤ depth)
    (hq : q.length ≤ depth) : (lqPush depth q d).length ≤ depth := by
  unfold lqPush
  split <;> simp <;> omega

/-- What is in the queue after a push was there before or is the new packet. -/
theorem mem_lqPush {depth : Nat} {q : List Decoded} {d x : Decoded} (h : x ∈ lqPush depth q d) :
    x ∈ q ∨ x = d := by
  unfold lqPush at h
  split at h
  · rcases List.mem_append.mp h with h | h
    · exact .inl (List.mem_of_mem_drop h)
    · exact .inr (List.mem_singleton.mp h)
  · rcases List.mem_append.mp h with h | h
    · exact .inl h
    · exact .inr (List.mem_singleton.mp h)

/-- The two cases of `resolvedBy`: the packet's own frame ID, pending in the right family, or
nothing. -/
theorem resolvedBy_cases (s : State) (p : Packet) :
    (∃ f, packetFrameId p = some f ∧ resolves s f p = true ∧ resolvedBy s p = some f) ∨
    ((∀ f, packetFrameId p = some f → resolves s f p = false) ∧ resolvedBy s p = none) := by
  unfold resolvedBy
  cases h : packetFrameId p with
  | none => simp
  | some f => cases hr : resolves s f p <;> simp [hr]

/-- Everything DELIVER can do (R286): one wait ends with a response, or the packet is queued. -/
theorem deliver_cases (d : Decoded) (s : State) :
    (∃ f, packetFrameId d.packet = some f ∧ resolves s f d.packet = true ∧
      deliver d s = (s.clearPending f).pushRsp (.response f d)) ∨
    ((∀ f, packetFrameId d.packet = some f → resolves s f d.packet = false) ∧
      deliver d s = s.setLq (lqPush s.cfg.lqDepth s.lq d)) := by
  rcases resolvedBy_cases s d.packet with ⟨f, hf, hr, h⟩ | ⟨hn, h⟩
  · exact .inl ⟨f, hf, hr, by simp [deliver, h]⟩
  · exact .inr ⟨hn, by simp [deliver, h]⟩

/-- Everything LQ_POP can do (R305). -/
theorem popListener_cases (s : State) :
    (s.lq = [] ∧ popListener s = s.pushPkt none) ∨
    (∃ d q, s.lq = d :: q ∧ popListener s = (s.setLq q).pushPkt (some d)) := by
  unfold popListener
  cases h : s.lq with
  | nil => exact .inl ⟨rfl, rfl⟩
  | cons d q => exact .inr ⟨d, q, rfl, rfl⟩

/-- Everything the dispatch of a payload can do (R241). -/
theorem dispatch_cases (p : List Byte) (s : State) :
    (∃ e, decodeFrame s.cfg p = .error e ∧ dispatch p s = raise .evt e s) ∨
    (∃ pkt, decodeFrame s.cfg p = .ok pkt ∧ dispatch p s = deliver (decodedOf s.cfg pkt) s) := by
  unfold dispatch
  cases h : decodeFrame s.cfg p with
  | error e => exact .inl ⟨e, rfl, rfl⟩
  | ok pkt => exact .inr ⟨pkt, rfl, rfl⟩

/-! ## The receive state machine -/

/-- Everything the payload step can do (R167). -/
theorem stepPayload_cases (u : Byte) (s : State) :
    (s.rx.cnt.toNat < bufSize ∧ stepPayload u s =
      .next (s.setRx { s.rx with
        buf := s.rx.buf.write s.rx.cnt.toNat u, sum := s.rx.sum + u, cnt := s.rx.cnt + 1,
        state := if s.rx.cnt + 1 = s.rx.len then .readingChecksum else s.rx.state })) ∨
    (bufSize ≤ s.rx.cnt.toNat ∧ stepPayload u s = .fault .bufIndex) := by
  unfold stepPayload
  split
  · exact .inl ⟨‹_›, rfl⟩
  · exact .inr ⟨by omega, rfl⟩

/-- Everything the checksum step can do (R168). -/
theorem stepChecksum_cases (u : Byte) (s : State) :
    (checksumOk s.rx.sum u = true ∧ stepChecksum u s =
      dispatch (s.rx.buf.slice s.rx.len.toNat)
        ((s.setRx { s.rx with state := .awaitingDelimiter }).pushFrame
          (s.rx.buf.slice s.rx.len.toNat))) ∨
    (checksumOk s.rx.sum u = false ∧ stepChecksum u s = checksumFailed s) := by
  unfold stepChecksum
  cases h : checksumOk s.rx.sum u with
  | true => exact .inl ⟨rfl, rfl⟩
  | false => exact .inr ⟨rfl, rfl⟩

/-- Everything the count logic can do (R160). -/
theorem countLogic_cases (u : Byte) (s : State) :
    (s.rx.state = .awaitingDelimiter ∧ countLogic u s = .next s) ∨
    (s.rx.state = .readingLength ∧ countLogic u s = .next (stepLength u s)) ∨
    (s.rx.state = .readingPayload ∧ countLogic u s = stepPayload u s) ∨
    (s.rx.state = .readingChecksum ∧ countLogic u s = .next (stepChecksum u s)) := by
  unfold countLogic
  cases h : s.rx.state <;> simp

/-- Everything a raw byte can do (R160, R161, R163, R173). -/
theorem receive_cases (b : Byte) (s : State) :
    (s.connOpen = false ∧ receive b s = .next s) ∨
    (s.connOpen = true ∧ s.rx.state = .awaitingDelimiter ∧ b = 0x7E ∧
      receive b s = .next (startFrame s)) ∨
    (s.connOpen = true ∧ s.rx.state = .awaitingDelimiter ∧ b ≠ 0x7E ∧ receive b s = .next s) ∨
    (s.connOpen = true ∧ s.rx.state ≠ .awaitingDelimiter ∧ s.cfg.escaped = true ∧
      s.rx.esc = false ∧ b = 0x7D ∧ receive b s = .next (s.setRx { s.rx with esc := true })) ∨
    (s.connOpen = true ∧ s.rx.state ≠ .awaitingDelimiter ∧ s.cfg.escaped = true ∧
      s.rx.esc = true ∧
      receive b s = countLogic (b ^^^ 0x20) (s.setRx { s.rx with esc := false })) ∨
    (s.connOpen = true ∧ s.rx.state ≠ .awaitingDelimiter ∧
      (s.cfg.escaped = false ∨ (s.rx.esc = false ∧ b ≠ 0x7D)) ∧
      receive b s = countLogic b s) := by
  have hself : s.setRx { s.rx with esc := s.rx.esc } = s := rfl
  cases ho : s.connOpen with
  | false => exact .inl ⟨rfl, by simp [receive, ho]⟩
  | true =>
    by_cases ha : s.rx.state = .awaitingDelimiter
    · by_cases hb : b = 0x7E
      · exact .inr (.inl ⟨rfl, ha, hb, by simp [receive, ho, ha, stepAwait, hb]⟩)
      · exact .inr (.inr (.inl ⟨rfl, ha, hb, by
          rw [receive, ho, if_pos rfl, ha]; exact congrArg _ (if_neg hb)⟩))
    · have hin : receive b s = stepInFrame b s := by
        unfold receive
        cases h : s.rx.state <;> simp_all
      cases he : s.cfg.escaped with
      | false =>
        refine .inr (.inr (.inr (.inr (.inr ⟨rfl, ha, .inl rfl, ?_⟩))))
        rw [hin]
        simp [stepInFrame, unescapeStage, he, hself]
      | true =>
        rcases unescapeByte_cases s.rx.esc b with ⟨hx, hu⟩ | ⟨hx, hb, hu⟩ | ⟨hx, hb, hu⟩
        · refine .inr (.inr (.inr (.inr (.inl ⟨rfl, ha, rfl, hx, ?_⟩))))
          rw [hin]
          simp [stepInFrame, unescapeStage, he, hu]
        · refine .inr (.inr (.inr (.inl ⟨rfl, ha, rfl, hx, hb, ?_⟩)))
          rw [hin]
          simp [stepInFrame, unescapeStage, he, hu]
        · refine .inr (.inr (.inr (.inr (.inr ⟨rfl, ha, .inr ⟨hx, hb⟩, ?_⟩))))
          rw [hin]
          have : s.setRx { s.rx with esc := false } = s := by rw [← hx]; exact hself
          simp [stepInFrame, unescapeStage, he, hu, this]

@[simp] theorem receiveAll_nil (s : State) : receiveAll [] s = .next s := rfl

/-- Receiving a byte and then the rest, when the byte's step goes on. -/
theorem receiveAll_cons_next {b : Byte} {w : List Byte} {s t : State} (h : receive b s = .next t) :
    receiveAll (b :: w) s = receiveAll w t := by
  simp [receiveAll, h]

/-- Receiving one sequence and then another, when the first goes through (R68). -/
theorem receiveAll_append_next {v w : List Byte} {s t : State} (h : receiveAll v s = .next t) :
    receiveAll (v ++ w) s = receiveAll w t := by
  induction v generalizing s with
  | nil => cases h; rfl
  | cons b v ih =>
    rw [List.cons_append, receiveAll]
    rw [receiveAll] at h
    cases hr : receive b s <;> simp_all

/-! ## Transmission -/

/-- Everything the length check can answer (R193). -/
theorem lengthCheck_cases (p : List Byte) :
    (p.length ≤ maxLen ∧ lengthCheck p = none) ∨
    (maxLen < p.length ∧ lengthCheck p = some (.outOfRange .length p.length 0 maxLen)) := by
  unfold lengthCheck
  split
  · exact .inr ⟨‹_›, rfl⟩
  · exact .inl ⟨by omega, rfl⟩

/-- Everything TX_FRAME can do (R190, R193, R194). -/
theorem txFrame_cases (p : List Byte) (s : State) :
    (s.connOpen = false ∧ txFrame p s = s) ∨
    (s.connOpen = true ∧ maxLen < p.length ∧
      txFrame p s = s.pushReq (.outOfRange .length p.length 0 maxLen)) ∨
    (s.connOpen = true ∧ p.length ≤ maxLen ∧ txFrame p s = s.pushTx (wrap s.cfg.escaped p)) := by
  unfold txFrame
  cases ho : s.connOpen with
  | false => simp
  | true =>
    rcases lengthCheck_cases p with ⟨hl, h⟩ | ⟨hl, h⟩
    · exact .inr (.inr ⟨rfl, hl, by simp [h]⟩)
    · exact .inr (.inl ⟨rfl, hl, by simp [h, raise]⟩)

/-- Everything SEND can do (R291). -/
theorem sendPacket_cases (p : Packet) (s : State) :
    (∃ e, rangeCheck p = some e ∧ sendPacket p s = s.pushReq e) ∨
    (rangeCheck p = none ∧ sendPacket p s = txFrame (payloadOf s.cfg p) s) := by
  unfold sendPacket
  cases h : rangeCheck p with
  | none => exact .inr ⟨rfl, rfl⟩
  | some e => exact .inl ⟨e, rfl, rfl⟩

/-- What holds when SEND_AND_WAIT reports no error (R292). -/
theorem waitCheck_none {p : Packet} {s : State} (h : waitCheck p s = none) :
    rangeCheck p = none ∧ (payloadOf s.cfg p).length ≤ maxLen ∧
      ∃ f, packetFrameId p = some f ∧ s.connOpen = true ∧ (s.corrAt f).pending = false := by
  unfold waitCheck at h
  simp only [Option.or_eq_none_iff] at h
  obtain ⟨hr, hl, hf⟩ := h
  refine ⟨hr, ?_, ?_⟩
  · rcases lengthCheck_cases (payloadOf s.cfg p) with ⟨h, -⟩ | ⟨-, h⟩
    · exact h
    · simp [h] at hl
  · cases hp : packetFrameId p with
    | none => simp [hp] at hf
    | some f =>
      refine ⟨f, rfl, ?_⟩
      cases ho : s.connOpen <;> cases hc : (s.corrAt f).pending <;> simp_all

/-- Everything SEND_AND_WAIT can do where unit 5 exists (R292). -/
theorem sendWaiting_cases (p : Packet) (s : State) :
    (∃ e, waitCheck p s = some e ∧ sendWaiting p s = s.pushReq e) ∨
    (∃ f, waitCheck p s = none ∧ packetFrameId p = some f ∧
      sendWaiting p s =
        (s.setCorrAt f { pending := true, reqType := packetCode s.cfg p }).pushTx
          (wrap s.cfg.escaped (payloadOf s.cfg p))) := by
  unfold sendWaiting
  cases h : waitCheck p s with
  | some e => exact .inl ⟨e, rfl, rfl⟩
  | none =>
    obtain ⟨-, hl, f, hf, ho, -⟩ := waitCheck_none h
    refine .inr ⟨f, rfl, hf, ?_⟩
    have hreg : register p s = s.setCorrAt f { pending := true, reqType := packetCode s.cfg p } := by
      simp [register, hf]
    rcases txFrame_cases (payloadOf s.cfg p) (register p s) with ⟨h', -⟩ | ⟨-, h', -⟩ | ⟨-, -, h'⟩
    · rw [hreg] at h'
      simp [ho] at h'
    · omega
    · rw [hreg] at h'
      rw [hreg, h']
      rfl

/-! ## Reset and close -/

/-- The entry of a frame ID after RESET (R350). -/
theorem resetBlock_corrAt (s : State) (f : Byte) :
    (resetBlock s).corrAt f =
      if s.cfg.corrPresent then { s.corrAt f with pending := false } else s.corrAt f := by
  cases h : s.cfg.corrPresent <;> simp [resetBlock, State.corrAt, h, clearAll]

/-- Everything CLOSE can do (R352). -/
theorem closeBlock_cases (s : State) :
    (s.connOpen = false ∧ closeBlock s = s) ∨
    (s.connOpen = true ∧ (closeBlock s).connOpen = false ∧ (closeBlock s).cfg = s.cfg ∧
      (closeBlock s).rx = { s.rx with state := .awaitingDelimiter, esc := false } ∧
      (closeBlock s).lq = s.lq ∧
      (∀ f : Byte, (closeBlock s).corrAt f =
        if s.cfg.corrPresent then { s.corrAt f with pending := false } else s.corrAt f) ∧
      (closeBlock s).rspOut = s.rspOut ++ (if s.cfg.corrPresent then closeEvents s else []) ∧
      (closeBlock s).txOut = s.txOut ∧ (closeBlock s).frameOut = s.frameOut ∧
      (closeBlock s).pktOut = s.pktOut ∧ (closeBlock s).evtOut = s.evtOut ∧
      (closeBlock s).reqOut = s.reqOut ∧ (closeBlock s).codecOut = s.codecOut ∧
      (closeBlock s).input = s.input) := by
  cases ho : s.connOpen with
  | false => exact .inl ⟨rfl, by simp [closeBlock, ho]⟩
  | true =>
    refine .inr ?_
    cases hc : s.cfg.corrPresent <;>
      simp [closeBlock, ho, hc, State.corrAt, clearAll]

end Sys2Proof.Machine
end

