-- ==== Sys2Proof/Laws/PerInstr.lean ====
section
/-! SUPPORT. Statements made per instruction, one lemma per constructor of `Instr`. -/

namespace Sys2Proof.Laws

open Sys2Proof.Machine

/-- What every item of its layer looks like: a payload starts with a frame-type byte of the table and
has a length between that row's least length and the largest payload (R96, R91); a read of a whole
frame starts with the delimiter and has at least 4 bytes (R90); a block has at least 5 (R261). -/
def itemShape (c : Cfg) : Item → Prop
  | .payload p => ∃ t, p.head? = some (frameCode c t) ∧ minLength t ≤ p.length ∧ p.length ≤ maxLen
  | .rxChunk w => w.head? = some 0x7E ∧ 4 ≤ w.length
  | .block _ b => 5 ≤ b.length
  | .rxIn _ => True
  | .stuffed _ => True
  | .event _ => True

/-- ESCAPE never shortens (R147). -/
theorem escape_length_ge (r : List Byte) : r.length ≤ (escape r).length := by
  induction r with
  | nil => simp
  | cons b r ih =>
    rw [escape_cons, List.length_append, List.length_cons]
    have : 1 ≤ (escapeByte b).length := by unfold escapeByte; split <;> simp
    omega

/-- The length of an optional trailing field as sent. -/
theorem trailingOk_length {n : Nat} {t : Option (List Byte)} (h : trailingOk n t = true) :
    n + (trailingBytes t).length ≤ maxLen := by
  cases t with
  | none => simpa [trailingOk, trailingBytes] using h
  | some t =>
    simp only [trailingOk, Bool.and_eq_true, decide_eq_true_eq] at h
    exact h.2

/-- The payload of a well-formed packet has the shape of its row. -/
theorem payload_shape (c : Cfg) (p : Packet) (h : packetOk p = true) :
    itemShape c (.payload (payloadOf c p)) := by
  refine ⟨packetType p, rfl, ?_⟩
  cases p <;>
    simp only [packetOk, Bool.and_eq_true] at h <;>
    first
      | (have ht := trailingOk_length h
         simp [payloadOf, encodeBody, packetType, minLength]
         omega)
      | (have ht := trailingOk_length h.2
         simp [payloadOf, encodeBody, packetType, minLength]
         omega)
      | simp [payloadOf, encodeBody, packetType, minLength, maxLen]

/-- The raw bytes of a frame start with the delimiter. -/
theorem rawFrame_shape (e : Bool) (p : List Byte) (k : Byte) :
    (rawFrame e p k).head? = some 0x7E ∧ 4 ≤ (rawFrame e p k).length := by
  refine ⟨rfl, ?_⟩
  have := escape_length_ge (bytesN 2 p.length ++ p ++ [k])
  cases e <;> simp [rawFrame, stuff] at * <;> omega

/-- The bytes of a well-formed block (R261). -/
theorem block_shape {c : Cfg} {t : IoType} {k : IosBlock} (h : blockOk c t k = true) :
    5 ≤ (blockBytes k).length := by
  have hf : ∀ l : List U16, (l.flatMap bytes2).length = 2 * l.length := by
    intro l
    induction l with
    | nil => rfl
    | cons x l ih => simp [ih]; omega
  simp only [blockOk, Bool.and_eq_true, beq_iff_eq, decide_eq_true_eq] at h
  obtain ⟨⟨⟨⟨hn, hd⟩, ha⟩, hp⟩, h5⟩ := h
  have e1 : k.nsamples.toList.length = nsampSize (nsampPresent c t) := by
    rw [nsampSize, ← hn]; cases k.nsamples <;> rfl
  have e2 : 2 * k.digitalValues.toList.length = digitalSize k.digitalMask := by
    unfold digitalSize
    cases hv : k.digitalValues with
    | none =>
      have : ¬ k.digitalMask ≠ 0 := by simpa [hv] using hd.symm
      rw [if_neg this]; rfl
    | some v =>
      have : k.digitalMask ≠ 0 := by simpa [hv] using hd.symm
      rw [if_pos this]; rfl
  have e3 : 2 * k.power.toList.length = if powerPresent k.analogMask then 2 else 0 := by
    rw [← hp]; cases k.power <;> rfl
  simp only [blockBytes, List.length_append, List.length_singleton, bytes2_length, hf, ha, e1]
  unfold blockNeed at h5
  omega

namespace ItemShape

/-- The item of a well-formed instruction has the shape of its layer. -/
def Statement (i : Instr) : Prop :=
  ∀ c it, wellFormed c i = true → encode c i = some it → itemShape c it

theorem rawDelimiter : Statement .rawDelimiter := by
  intro _ _ _ e
  cases e
  trivial

theorem rawNoise : ∀ x0, Statement (.rawNoise x0) := by
  intro _ _ _ _ e
  cases e
  trivial

theorem rawEscapeMarker : Statement .rawEscapeMarker := by
  intro _ _ _ e
  cases e
  trivial

theorem rawEscapedSecond : ∀ x0, Statement (.rawEscapedSecond x0) := by
  intro _ _ _ _ e
  cases e
  trivial

theorem rawLiteral : ∀ x0, Statement (.rawLiteral x0) := by
  intro _ _ _ _ e
  cases e
  trivial

theorem escPair7E : Statement .escPair7E := by
  intro _ _ _ e
  cases e
  trivial

theorem escPair7D : Statement .escPair7D := by
  intro _ _ _ e
  cases e
  trivial

theorem escPair11 : Statement .escPair11 := by
  intro _ _ _ e
  cases e
  trivial

theorem escPair13 : Statement .escPair13 := by
  intro _ _ _ e
  cases e
  trivial

theorem frame : ∀ x0 x1, Statement (.frame x0 x1) := by
  intro x0 x1 c _ _ e
  cases e
  exact rawFrame_shape c.escaped x0 x1

theorem tx64 : ∀ x0, Statement (.tx64 x0) := by
  intro x0 c _ h e
  cases e
  exact payload_shape c (.tx64 x0) h

theorem tx16 : ∀ x0, Statement (.tx16 x0) := by
  intro x0 c _ h e
  cases e
  exact payload_shape c (.tx16 x0) h

theorem atCommand : ∀ x0, Statement (.atCommand x0) := by
  intro x0 c _ h e
  cases e
  exact payload_shape c (.atCommand x0) h

theorem atCommandQueue : ∀ x0, Statement (.atCommandQueue x0) := by
  intro x0 c _ h e
  cases e
  exact payload_shape c (.atCommandQueue x0) h

theorem transmitRequest : ∀ x0, Statement (.transmitRequest x0) := by
  intro x0 c _ h e
  cases e
  exact payload_shape c (.transmitRequest x0) h

theorem explicitAddressing : ∀ x0, Statement (.explicitAddressing x0) := by
  intro x0 c _ h e
  cases e
  exact payload_shape c (.explicitAddressing x0) h

theorem remoteAtCommand : ∀ x0, Statement (.remoteAtCommand x0) := by
  intro x0 c _ h e
  cases e
  exact payload_shape c (.remoteAtCommand x0) h

theorem rx64 : ∀ x0, Statement (.rx64 x0) := by
  intro x0 c _ h e
  cases e
  exact payload_shape c (.rx64 x0) h

theorem rx16 : ∀ x0, Statement (.rx16 x0) := by
  intro x0 c _ h e
  cases e
  exact payload_shape c (.rx16 x0) h

theorem rx64Io : ∀ x0, Statement (.rx64Io x0) := by
  intro x0 c _ h e
  cases e
  exact payload_shape c (.rx64Io x0) h

theorem rx16Io : ∀ x0, Statement (.rx16Io x0) := by
  intro x0 c _ h e
  cases e
  exact payload_shape c (.rx16Io x0) h

theorem atCommandResponse : ∀ x0, Statement (.atCommandResponse x0) := by
  intro x0 c _ h e
  cases e
  exact payload_shape c (.atCommandResponse x0) h

theorem txStatus : ∀ x0, Statement (.txStatus x0) := by
  intro x0 c _ h e
  cases e
  exact payload_shape c (.txStatus x0) h

theorem modemStatus : ∀ x0, Statement (.modemStatus x0) := by
  intro x0 c _ h e
  cases e
  exact payload_shape c (.modemStatus x0) h

theorem transmitStatus : ∀ x0, Statement (.transmitStatus x0) := by
  intro x0 c _ h e
  cases e
  exact payload_shape c (.transmitStatus x0) h

theorem receivePacket : ∀ x0, Statement (.receivePacket x0) := by
  intro x0 c _ h e
  cases e
  exact payload_shape c (.receivePacket x0) h

theorem explicitRxIndicator : ∀ x0, Statement (.explicitRxIndicator x0) := by
  intro x0 c _ h e
  cases e
  exact payload_shape c (.explicitRxIndicator x0) h

theorem ioDataSampleRx : ∀ x0, Statement (.ioDataSampleRx x0) := by
  intro x0 c _ h e
  cases e
  exact payload_shape c (.ioDataSampleRx x0) h

theorem remoteAtCommandResponse : ∀ x0, Statement (.remoteAtCommandResponse x0) := by
  intro x0 c _ h e
  cases e
  exact payload_shape c (.remoteAtCommandResponse x0) h

theorem deviceRequest : ∀ x0, Statement (.deviceRequest x0) := by
  intro x0 c _ h e
  cases e
  exact payload_shape c (.deviceRequest x0) h

theorem sendDataRequest : ∀ x0, Statement (.sendDataRequest x0) := by
  intro x0 c _ h e
  cases e
  exact payload_shape c (.sendDataRequest x0) h

theorem iosBlock : ∀ x0 x1, Statement (.iosBlock x0 x1) := by
  intro x0 x1 c _ h e
  cases e
  exact block_shape h

theorem rxByte : ∀ x0, Statement (.rxByte x0) := by
  intro _ _ _ _ e
  cases e
  trivial

theorem txFrame : ∀ x0, Statement (.txFrame x0) := by
  intro _ _ _ _ e
  cases e
  trivial

theorem checksum : ∀ x0, Statement (.checksum x0) := by
  intro _ _ _ _ e
  cases e
  trivial

theorem escape : ∀ x0, Statement (.escape x0) := by
  intro _ _ _ _ e
  cases e
  trivial

theorem unescape : ∀ x0 x1, Statement (.unescape x0 x1) := by
  intro _ _ _ _ _ e
  cases e
  trivial

theorem decodeFrame : ∀ x0, Statement (.decodeFrame x0) := by
  intro _ _ _ _ e
  cases e
  trivial

theorem decodeAs : ∀ x0 x1, Statement (.decodeAs x0 x1) := by
  intro _ _ _ _ _ e
  cases e
  trivial

theorem encode : ∀ x0, Statement (.encode x0) := by
  intro _ _ _ _ e
  cases e
  trivial

theorem iosDecode : ∀ x0 x1, Statement (.iosDecode x0 x1) := by
  intro _ _ _ _ _ e
  cases e
  trivial

theorem iosPower : ∀ x0, Statement (.iosPower x0) := by
  intro _ _ _ _ e
  cases e
  trivial

theorem send : ∀ x0, Statement (.send x0) := by
  intro _ _ _ _ e
  cases e
  trivial

theorem sendAndWait : ∀ x0, Statement (.sendAndWait x0) := by
  intro _ _ _ _ e
  cases e
  trivial

theorem deliver : ∀ x0, Statement (.deliver x0) := by
  intro _ _ _ _ e
  cases e

theorem corrTimeout : ∀ x0, Statement (.corrTimeout x0) := by
  intro _ _ _ _ e
  cases e
  trivial

theorem corrCancel : ∀ x0, Statement (.corrCancel x0) := by
  intro _ _ _ _ e
  cases e
  trivial

theorem lqPop : Statement .lqPop := by
  intro _ _ _ e
  cases e
  trivial

theorem reset : Statement .reset := by
  intro _ _ _ e
  cases e
  trivial

theorem close : Statement .close := by
  intro _ _ _ e
  cases e
  trivial

theorem checksumError : Statement .checksumError := by
  intro _ _ _ e
  cases e

theorem nullPayload : ∀ x0, Statement (.nullPayload x0) := by
  intro _ _ _ _ e
  cases e

theorem incomplete : ∀ x0 x1 x2, Statement (.incomplete x0 x1 x2) := by
  intro _ _ _ _ _ _ e
  cases e

theorem wrongFrameType : ∀ x0 x1, Statement (.wrongFrameType x0 x1) := by
  intro _ _ _ _ _ e
  cases e

theorem unknownFrameType : ∀ x0 x1, Statement (.unknownFrameType x0 x1) := by
  intro _ _ _ _ _ e
  cases e

theorem outOfRange : ∀ x0 x1 x2 x3 x4, Statement (.outOfRange x0 x1 x2 x3 x4) := by
  intro _ _ _ _ _ _ _ _ e
  cases e

theorem timeout : ∀ x0, Statement (.timeout x0) := by
  intro _ _ _ _ e
  cases e

theorem connectionClosed : ∀ x0, Statement (.connectionClosed x0) := by
  intro _ _ _ _ e
  cases e

theorem noPendingRequest : Statement .noPendingRequest := by
  intro _ _ _ e
  cases e

theorem frameIdInUse : ∀ x0, Statement (.frameIdInUse x0) := by
  intro _ _ _ _ e
  cases e

theorem operationNotSupported : Statement .operationNotSupported := by
  intro _ _ _ e
  cases e

end ItemShape

end Sys2Proof.Laws
end

