-- ==== Sys2Proof/Laws/Step.lean ====
section
/-! SUPPORT. What one step can do, said once. -/

namespace Sys2Proof.Machine

/-- With nothing waiting a step changes nothing (R172). -/
theorem step_idle {s : State} (h : s.input = []) : step s = .next s := by
  simp [step, fetch, h]

/-- A step on an item the decoder reads runs its instruction on the state without the item. -/
theorem step_decoded {s : State} {it : Item} {q : List Item} {i : Instr}
    (h : s.input = it :: q) (hd : decode (ctxOf s) it = .ok i) : step s = exec i (s.setInput q) := by
  simp [step, fetch, h, hd]

/-- A step on an item the decoder rejects. -/
theorem step_rejected {s : State} {it : Item} {q : List Item} {r : Reject}
    (h : s.input = it :: q) (hd : decode (ctxOf s) it = .error r) :
    step s = rejectItem r (s.setInput q) := by
  simp [step, fetch, h, hd]

/-- Everything a step can do. -/
theorem step_cases (s : State) :
    (s.input = [] ∧ step s = .next s) ∨
    (∃ it q i, s.input = it :: q ∧ decode (ctxOf s) it = .ok i ∧ step s = exec i (s.setInput q)) ∨
    (∃ it q r, s.input = it :: q ∧ decode (ctxOf s) it = .error r ∧
      step s = rejectItem r (s.setInput q)) := by
  cases h : s.input with
  | nil => exact .inl ⟨rfl, step_idle h⟩
  | cons it q =>
    cases hd : decode (ctxOf s) it with
    | ok i => exact .inr (.inl ⟨it, q, i, rfl, hd, step_decoded h hd⟩)
    | error r => exact .inr (.inr ⟨it, q, r, rfl, hd, step_rejected h hd⟩)

/-- The operation of an input event runs as that operation. -/
theorem step_event {s : State} {e : Event} {q : List Item} (h : s.input = .event e :: q) :
    step s = exec (eventInstr e) (s.setInput q) :=
  step_decoded h rfl

end Sys2Proof.Machine
end

