-- ==== Sys2Proof/Tests/Slice0.lean ====
section
/-! SUPPORT. The model's own tests: ill-formed terms refused, the decoding of written-out words, one
step of each row on the vectors of `95_test_vectors.md`, and witnesses for the hypotheses of the
statements. -/

namespace Sys2Proof.Tests

-- The tests are checked one after another: run side by side, they ask for more threads than the
-- check's memory limit leaves room for.
set_option Elab.async false

open Sys2Proof Sys2Proof.Machine

/-- The state a step goes on with, if it does. -/
def after (o : Host.Outcome State Fault Refusal) : Option State :=
  match o with
  | .next t => some t
  | .fault _ => none
  | .refused _ => none

/-- The configuration of the vectors, in a given mode. -/
def mode (escaped : Bool) : Cfg := { Cfg.initial with escaped := escaped }

/-- A context between frames. -/
def idle : Ctx := { cfg := Cfg.initial, rxState := .awaitingDelimiter, esc := false }

/-- A context inside a frame. -/
def inside (escaped esc : Bool) : Ctx := { cfg := mode escaped, rxState := .readingPayload, esc := esc }

/-- Reset state in a given mode, with the given RX registers. -/
def withRx (escaped : Bool) (r : Rx) : State := { State.resetWith (mode escaped) with rx := r }

/-- RX registers with an empty buffer. -/
def regs (st : RxState) (esc : Bool) (len cnt : U16) (sum : Byte) : Rx :=
  { state := st, esc := esc, len := len, cnt := cnt, sum := sum, buf := [] }

/-- The AT command "NI" with a frame ID. -/
def niCommand (f : Byte) : Packet := .atCommand { frameId := f, command := (0x4E, 0x49), parameter := none }

/-- The response to it. -/
def niResponse (f : Byte) : Packet :=
  .atCommandResponse { frameId := f, command := (0x4E, 0x49), status := 0, value := none }

/-- A modem status. -/
def modem (n : Byte) : Packet := .modemStatus { status := n }

/-- Reset state with pending waits of AT commands. -/
def waiting (ids : List Byte) : State :=
  { State.reset with corr := ids.foldl (fun v f => v.set f.toNat { pending := true, reqType := 0x08 } f.isLt)
                               State.reset.corr }

/-- A closed connection. -/
def closed : State := { State.reset with connOpen := false }

/-- A build without unit 5. -/
def noUnit5 : State := State.resetWith { Cfg.initial with corrPresent := false }

/-- The sample of V-IOS4. -/
def sampleLine0 : IoSample :=
  { digitalMask := 1, analogMask := 0, digital := Vector.ofFn fun i => if i.val = 0 then some .high else none,
    analog := Vector.replicate 6 none, power := none }

/-- The sample of V-IOS12. -/
def samplePower : IoSample :=
  { digitalMask := 0, analogMask := 0x80, digital := Vector.replicate 16 none,
    analog := Vector.replicate 6 none, power := some 0x0CE4 }

/-- The block of V-IOS15. -/
def blockLine0Power : IosBlock :=
  { nsamples := none, digitalMask := 1, analogMask := 0x80, digitalValues := some 1, analogValues := [],
    power := some 0x0CE4, excess := [] }

/-- Zero bytes, as many as asked. -/
def zeros (n : Nat) : List Byte := List.replicate n 0

theorem zeros_length (n : Nat) : (zeros n).length = n := by simp [zeros]

/-! ## Well-formedness refuses -/

theorem test_wf_noise_delimiter : wellFormed Cfg.initial (.rawNoise 0x7E) = false := by decide
theorem test_wf_frame_too_long :
    wellFormed Cfg.initial (.frame (zeros 65536) 0) = false := by
  simp [wellFormed, framePayloadOk, maxLen, zeros_length]
theorem test_wf_trailing_empty :
    wellFormed Cfg.initial (.tx16 { frameId := 1, addr16 := 2, options := 3, rfData := some [] }) = false := by
  decide
theorem test_wf_trailing_too_long : trailingOk 5 (some (zeros 65531)) = false := by
  simp [trailingOk, maxLen, zeros_length]
theorem test_wf_target_too_long :
    wellFormed Cfg.initial (.deviceRequest
      { requestId := 1, transport := 0, flags := 0, target := zeros 256, data := none }) = false := by
  simp [wellFormed, packetOk, embeddedOk, zeros_length]
theorem test_wf_block_values_missing :
    wellFormed Cfg.initial (.iosBlock .rx16Io { blockLine0Power with digitalValues := none }) = false := by
  decide
theorem test_wf_sample_map : wellFormed Cfg.initial (.iosPower { sampleLine0 with digitalMask := 2 }) = false := by
  decide
theorem test_wf_checksum_too_long :
    wellFormed Cfg.initial (.checksum (zeros 65536)) = false := by
  simp [wellFormed, checksumOperandOk, maxLen, zeros_length]
theorem test_wf_incomplete_enough : wellFormed Cfg.initial (.incomplete 2 2 .caller) = false := by decide
theorem test_wf_wrong_type_same : wellFormed Cfg.initial (.wrongFrameType 0x8A 0x8A) = false := by decide
theorem test_wf_unknown_type_known :
    wellFormed Cfg.initial (.unknownFrameType 0x8A .receivePath) = false := by decide
theorem test_wf_out_of_range_inside :
    wellFormed Cfg.initial (.outOfRange .rssi 100 0 100 .codecCaller) = false := by decide

/-! ## Decoding of written words -/

/-- R95, and the escape pairs of R94. -/
theorem test_decode_stream_bytes :
    decode idle (.rxIn 0x7E) = .ok .rawDelimiter ∧ decode idle (.rxIn 0x41) = .ok (.rawNoise 0x41) ∧
    decode (inside true false) (.rxIn 0x7D) = .ok .rawEscapeMarker ∧
    decode (inside true true) (.rxIn 0x31) = .ok (.rawEscapedSecond 0x31) ∧
    decode (inside true false) (.rxIn 0x7E) = .ok (.rawLiteral 0x7E) ∧
    decode (inside false false) (.rxIn 0x7D) = .ok (.rawLiteral 0x7D) ∧
    decode idle (.stuffed 0x7E) = .ok .escPair7E ∧ decode idle (.stuffed 0x7D) = .ok .escPair7D ∧
    decode idle (.stuffed 0x11) = .ok .escPair11 ∧ decode idle (.stuffed 0x13) = .ok .escPair13 := by
  decide +kernel

/-- V-TX13 as a received read, and V-TX3 in escaped mode. -/
theorem test_decode_frames :
    decode idle (.rxChunk [0x7E, 0x00, 0x04, 0x08, 0x01, 0x4E, 0x49, 0x5F]) =
      .ok (.frame [0x08, 0x01, 0x4E, 0x49] 0x5F) ∧
    decode (inside true false) (.rxChunk [0x7E, 0x00, 0x02, 0x23, 0x7D, 0x31, 0xCB]) =
      .ok (.frame [0x23, 0x11] 0xCB) ∧
    decode idle (.rxChunk [0x7E, 0x00, 0x02, 0x8A, 0x06]) =
      .error (.notOneFrame [0x7E, 0x00, 0x02, 0x8A, 0x06]) := by
  decide +kernel

/-- V-DEC1, 2, 4 to 6, 8 and 9. -/
theorem test_decode_requests :
    decode idle (.payload [0x00, 0x01, 0x00, 0x13, 0xA2, 0x00, 0x40, 0x52, 0x2B, 0xAA, 0x00, 0x48, 0x69]) =
      .ok (.tx64 { frameId := 1, addr64 := 0x0013A20040522BAA, options := 0, rfData := some [0x48, 0x69] }) ∧
    decode idle (.payload [0x01, 0x05, 0x12, 0x34, 0x01, 0x41]) =
      .ok (.tx16 { frameId := 5, addr16 := 0x1234, options := 1, rfData := some [0x41] }) ∧
    decode idle (.payload [0x08, 0x01, 0x4E, 0x49]) =
      .ok (.atCommand { frameId := 1, command := (0x4E, 0x49), parameter := none }) ∧
    decode idle (.payload [0x09, 0x02, 0x42, 0x44, 0x07]) =
      .ok (.atCommandQueue { frameId := 2, command := (0x42, 0x44), parameter := some [0x07] }) ∧
    decode idle (.payload [0x10, 0x01, 0x00, 0x00, 0x00, 0x00, 0x00, 0x00, 0xFF, 0xFF, 0xFF, 0xFE, 0x00,
        0x00, 0x54, 0x78]) =
      .ok (.transmitRequest { frameId := 1, addr64 := 0xFFFF, addr16 := 0xFFFE, bcastRadius := 0,
                              options := 0, rfData := some [0x54, 0x78] }) ∧
    decode idle (.payload [0x11, 0x01, 0x00, 0x13, 0xA2, 0x00, 0x40, 0x52, 0x2B, 0xAA, 0xFF, 0xFE, 0xE8,
        0xE8, 0x00, 0x11, 0xC1, 0x05, 0x00, 0x00, 0x41]) =
      .ok (.explicitAddressing
        { frameId := 1, addr64 := 0x0013A20040522BAA, addr16 := 0xFFFE, srcEp := 0xE8, dstEp := 0xE8,
          cluster := 0x0011, profile := 0xC105, bcastRadius := 0, options := 0, rfData := some [0x41] }) ∧
    decode idle (.payload [0x17, 0x01, 0x00, 0x13, 0xA2, 0x00, 0x40, 0x52, 0x2B, 0xAA, 0xFF, 0xFE, 0x02,
        0x44, 0x31, 0x05]) =
      .ok (.remoteAtCommand { frameId := 1, addr64 := 0x0013A20040522BAA, addr16 := 0xFFFE, options := 2,
                              command := (0x44, 0x31), parameter := some [0x05] }) := by
  decide +kernel

/-- V-DEC10, 11, 13, 14, 24, 27 and 28. -/
theorem test_decode_indications :
    decode idle (.payload [0x80, 0x00, 0x13, 0xA2, 0x00, 0x40, 0x52, 0x2B, 0xAA, 0x28, 0x00, 0x48, 0x69]) =
      .ok (.rx64 { addr64 := 0x0013A20040522BAA, rssi := 0x28, options := 0, rfData := some [0x48, 0x69] }) ∧
    decode idle (.payload [0x81, 0x12, 0x34, 0x32, 0x02, 0x41]) =
      .ok (.rx16 { addr16 := 0x1234, rssi := 0x32, options := 2, rfData := some [0x41] }) ∧
    decode idle (.payload [0x82, 0x00, 0x13, 0xA2, 0x00, 0x40, 0x52, 0x2B, 0xAA, 0x28, 0x00, 0x00, 0x00,
        0x01, 0x02, 0xA5]) =
      .ok (.rx64Io { addr64 := 0x0013A20040522BAA, rssi := 0x28, options := 0,
                     rfData := some [0x00, 0x00, 0x01, 0x02, 0xA5] }) ∧
    decode idle (.payload [0x83, 0x12, 0x34, 0x28, 0x00, 0x00, 0x01, 0x00, 0x00, 0x01]) =
      .ok (.rx16Io { addr16 := 0x1234, rssi := 0x28, options := 0,
                     rfData := some [0x00, 0x01, 0x00, 0x00, 0x01] }) ∧
    decode idle (.payload [0x90, 0x00, 0x13, 0xA2, 0x00, 0x40, 0x52, 0x2B, 0xAA, 0x12, 0x34, 0x01, 0x48,
        0x69]) =
      .ok (.receivePacket { addr64 := 0x0013A20040522BAA, addr16 := 0x1234, options := 1,
                            rfData := some [0x48, 0x69] }) ∧
    decode idle (.payload [0x91, 0x00, 0x13, 0xA2, 0x00, 0x40, 0x52, 0x2B, 0xAA, 0x12, 0x34, 0xE8, 0xE8,
        0x00, 0x11, 0xC1, 0x05, 0x04, 0x41]) =
      .ok (.explicitRxIndicator { addr64 := 0x0013A20040522BAA, addr16 := 0x1234, srcEp := 0xE8,
                                  dstEp := 0xE8, cluster := 0x0011, profile := 0xC105, options := 4,
                                  rfData := some [0x41] }) ∧
    decode idle (.payload [0x92, 0x00, 0x13, 0xA2, 0x00, 0x40, 0x52, 0x2B, 0xAA, 0x12, 0x34, 0x01, 0x00,
        0x01, 0x80, 0x00, 0x01, 0x0C, 0xE4]) =
      .ok (.ioDataSampleRx { addr64 := 0x0013A20040522BAA, addr16 := 0x1234, options := 1,
                             rfData := some [0x00, 0x01, 0x80, 0x00, 0x01, 0x0C, 0xE4] }) := by
  decide +kernel

/-- V-DEC17, 19 to 22, 30, 31 and 34. -/
theorem test_decode_responses_and_lengths :
    decode idle (.payload [0x88, 0x01, 0x4E, 0x49, 0x00, 0x58, 0x42]) =
      .ok (.atCommandResponse { frameId := 1, command := (0x4E, 0x49), status := 0,
                                value := some [0x58, 0x42] }) ∧
    decode idle (.payload [0x89, 0x01, 0x00]) = .ok (.txStatus { frameId := 1, status := 0 }) ∧
    decode idle (.payload [0x8A, 0x06, 0xFF]) = .ok (.modemStatus { status := 6 }) ∧
    decode idle (.payload [0x8B, 0x01, 0xFF, 0xFE, 0x00, 0x00, 0x00]) =
      .ok (.transmitStatus { frameId := 1, addr16 := 0xFFFE, retryCount := 0, deliveryStatus := 0,
                             discoveryStatus := 0 }) ∧
    decode idle (.payload [0x97, 0x01, 0x00, 0x13, 0xA2, 0x00, 0x40, 0x52, 0x2B, 0xAA, 0x12, 0x34, 0x44,
        0x31, 0x00]) =
      .ok (.remoteAtCommandResponse { frameId := 1, addr64 := 0x0013A20040522BAA, addr16 := 0x1234,
                                      command := (0x44, 0x31), status := 0, value := none }) ∧
    decode idle (.payload [0xB9, 0x01, 0x00, 0x00, 0x03, 0x61, 0x62, 0x63, 0x44]) =
      .ok (.deviceRequest { requestId := 1, transport := 0, flags := 0, target := [0x61, 0x62, 0x63],
                            data := some [0x44] }) ∧
    decode idle (.payload [0x28, 0x01, 0x03, 0x61, 0x2F, 0x62, 0x02, 0x74, 0x78, 0x00, 0x00, 0x48, 0x69]) =
      .ok (.sendDataRequest { frameId := 1, path := [0x61, 0x2F, 0x62], contentType := [0x74, 0x78],
                              transport := 0, options := 0, fileData := some [0x48, 0x69] }) := by
  decide +kernel

/-- V-DEC33, 36 to 42: payloads that are rejected, each by its name. -/
theorem test_decode_rejects :
    decode idle (.payload [0xB9, 0x01, 0x00, 0x00, 0x03, 0x61, 0x62]) = .error (.decodeError (.incomplete 8 7)) ∧
    decode idle (.payload [0x28, 0x01, 0x03, 0x61, 0x2F, 0x62, 0x02, 0x74]) =
      .error (.decodeError (.incomplete 9 8)) ∧
    decode idle (.payload [0x28, 0x01, 0x01, 0x61, 0x05, 0x74, 0x78, 0x00]) =
      .error (.decodeError (.incomplete 12 8)) ∧
    decode idle (.payload []) = .error (.decodeError .nullPayload) ∧
    decode idle (.payload [0x42, 0x00]) = .error (.decodeError (.unknownFrameType 0x42)) ∧
    decode idle (.payload [0x8A]) = .error (.decodeError (.incomplete 2 1)) ∧
    decodeAs Cfg.initial .modemStatus [0x90, 0x06] = .error (.wrongFrameType 0x8A 0x90) := by
  decide +kernel

/-- V-IOS15, 16, 18 and 14 (a block that is none). -/
theorem test_decode_blocks :
    decode idle (.block .rx16Io [0x00, 0x01, 0x80, 0x00, 0x01, 0x0C, 0xE4]) =
      .ok (.iosBlock .rx16Io blockLine0Power) ∧
    decode idle (.block .rx64Io [0xFF, 0xFF, 0xBF, 0xFF, 0xFF, 0x00, 0x01, 0x00, 0x02, 0x00, 0x03, 0x00,
        0x04, 0x00, 0x05, 0x00, 0x06, 0x0B, 0xB8]) =
      .ok (.iosBlock .rx64Io { nsamples := none, digitalMask := 0xFFFF, analogMask := 0xBF,
                               digitalValues := some 0xFFFF, analogValues := [1, 2, 3, 4, 5, 6],
                               power := some 0x0BB8, excess := [] }) ∧
    decode { idle with cfg := { Cfg.initial with nsampIo := true } }
        (.block .ioDataSampleRx [0x01, 0x00, 0x01, 0x00, 0x00, 0x01]) =
      .ok (.iosBlock .ioDataSampleRx { nsamples := some 1, digitalMask := 1, analogMask := 0,
                                       digitalValues := some 1, analogValues := [], power := none,
                                       excess := [] }) ∧
    decode idle (.block .rx16Io [0x00, 0x01, 0x01, 0x00, 0x01]) = .error .noSample := by
  decide +kernel

/-- The events of R10. -/
theorem test_decode_events :
    decode idle (.event (.rxByte 0x7E)) = .ok (.rxByte 0x7E) ∧
    decode idle (.event (.txFrame [0x8A, 0x06])) = .ok (.txFrame [0x8A, 0x06]) ∧
    decode idle (.event (.checksum [0x7E])) = .ok (.checksum [0x7E]) ∧
    decode idle (.event (.escape [0x7E])) = .ok (.escape [0x7E]) ∧
    decode idle (.event (.unescape true [0x31])) = .ok (.unescape true [0x31]) ∧
    decode idle (.event (.decodeFrame [0x8A, 0x06])) = .ok (.decodeFrame [0x8A, 0x06]) ∧
    decode idle (.event (.decodeAs .txStatus [0x89])) = .ok (.decodeAs .txStatus [0x89]) ∧
    decode idle (.event (.encode (modem 6))) = .ok (.encode (modem 6)) ∧
    decode idle (.event (.iosDecode .rx64Io none)) = .ok (.iosDecode .rx64Io none) ∧
    decode idle (.event (.iosPower samplePower)) = .ok (.iosPower samplePower) := by
  decide +kernel

/-- The events of R10, continued. -/
theorem test_decode_events_of_units_4_and_5 :
    decode idle (.event (.send (modem 6))) = .ok (.send (modem 6)) ∧
    decode idle (.event (.sendAndWait (niCommand 1))) = .ok (.sendAndWait (niCommand 1)) ∧
    decode idle (.event (.corrTimeout 9)) = .ok (.corrTimeout 9) ∧
    decode idle (.event (.corrCancel 9)) = .ok (.corrCancel 9) ∧
    decode idle (.event .lqPop) = .ok .lqPop ∧ decode idle (.event .reset) = .ok .reset ∧
    decode idle (.event .close) = .ok .close := by
  decide +kernel

/-- A word placed by `withFetchWord` is the first thing that runs after reset. -/
theorem test_fetch_word :
    (after (step (State.reset.withFetchWord 16 0x068A))).map (·.lq) =
      some [decodedOf Cfg.initial (modem 6)] ∧
    (after (step (State.reset.withFetchWord 8 0x7D))).map (fun t => (t.rx.state, t.rx.esc)) =
      some (.readingLength, true) := by
  decide +kernel

/-! ## One step of each row -/

/-- P1 steps 3 and 2. -/
theorem test_raw_delimiter_and_noise :
    (after (exec .rawDelimiter State.reset)).map (·.rx) = some (regs .readingLength false 0 0 0) ∧
    (after (exec (.rawNoise 0x41) State.reset)).map (·.rx) = some (regs .awaitingDelimiter false 0 0 0) := by
  decide +kernel

/-- V-RX6 and the byte after it; a literal 0x7E in a frame is data (V-RX11). -/
theorem test_raw_in_frame :
    (after (exec .rawEscapeMarker (withRx true (regs .readingPayload false 2 1 0x23)))).map (·.rx) =
      some (regs .readingPayload true 2 1 0x23) ∧
    (after (exec (.rawEscapedSecond 0x31) (withRx true (regs .readingPayload true 2 1 0x23)))).map
        (·.rx) = some { regs .readingChecksum false 2 2 0x34 with buf := [(1, 0x11)] } ∧
    (after (exec (.rawLiteral 0x7E) (withRx false (regs .readingPayload false 3 0 0)))).map
        (·.rx) = some { regs .readingPayload false 3 1 0x7E with buf := [(0, 0x7E)] } := by
  decide +kernel

/-- R94: the four pairs. -/
theorem test_escape_pairs :
    (after (exec .escPair7E State.reset)).map (·.codecOut) = some [.bytes [0x7D, 0x5E]] ∧
    (after (exec .escPair7D State.reset)).map (·.codecOut) = some [.bytes [0x7D, 0x5D]] ∧
    (after (exec .escPair11 State.reset)).map (·.codecOut) = some [.bytes [0x7D, 0x31]] ∧
    (after (exec .escPair13 State.reset)).map (·.codecOut) = some [.bytes [0x7D, 0x33]] := by
  decide +kernel

/-- V-RX1: the frame, its packet in the queue, and the registers behind it. -/
theorem test_frame_good :
    (after (exec (.frame [0x8A, 0x06] 0x6F) State.reset)).map
        (fun t => (t.frameOut, t.evtOut, t.lq)) =
      some ([[0x8A, 0x06]], [], [decodedOf Cfg.initial (modem 6)]) ∧
    (after (exec (.frame [0x8A, 0x06] 0x6F) State.reset)).map (·.rx) =
      some { regs .awaitingDelimiter false 2 2 0x90 with buf := [(0, 0x8A), (1, 0x06)] } := by
  decide +kernel

/-- V-RX2: the checksum the source prints. -/
theorem test_frame_bad :
    (after (exec (.frame [0x8A, 0x06] 0x74) State.reset)).map (fun t => (t.frameOut, t.evtOut, t.lq)) =
      some ([], [.checksumError], []) := by
  decide +kernel

/-- Requests and indications go to the queue (R288). -/
theorem test_frame_rows_queue :
    (after (exec (.tx64 { frameId := 1, addr64 := 0xFFFF, options := 0, rfData := none }) State.reset)).map
        (fun t => t.lq.map (·.isBroadcast)) = some [true] ∧
    (after (exec (.tx16 { frameId := 1, addr16 := 0xFFFF, options := 0, rfData := none }) State.reset)).map
        (fun t => t.lq.map (·.isBroadcast)) = some [true] ∧
    (after (exec (.rx16 { addr16 := 0x1234, rssi := 50, options := 2, rfData := none }) State.reset)).map
        (fun t => t.lq.map (·.isBroadcast)) = some [true] ∧
    (after (exec (.rx16Io
        { addr16 := 0x1234, rssi := 40, options := 0, rfData := some [0x00, 0x01, 0x00, 0x00, 0x01] })
        State.reset)).map
        (fun t => t.lq.map (·.ioSample)) = some [some sampleLine0] ∧
    (after (exec (.modemStatus { status := 6 }) (waiting [0]))).map (fun t => (t.lq.length, t.rspOut)) =
      some (1, []) := by
  decide +kernel

/-- P-style scenario S2 and V-CORR3: the right family resolves the wait, the wrong one does not. -/
theorem test_response_rows :
    (after (exec (.atCommandResponse { frameId := 1, command := (0x4E, 0x49), status := 0, value := none })
        (waiting [1]))).map (fun t => (t.rspOut, (t.corrAt 1).pending, t.lq.length)) =
      some ([.response 1 (decodedOf Cfg.initial (niResponse 1))], false, 0) ∧
    (after (exec (.txStatus { frameId := 1, status := 0 }) (waiting [1]))).map
        (fun t => (t.rspOut, (t.corrAt 1).pending, t.lq.length)) = some ([], true, 1) := by
  decide +kernel

/-- V-IOS15. -/
theorem test_ios_block :
    (after (exec (.iosBlock .rx16Io blockLine0Power) State.reset)).map (·.codecOut) =
      some [.sample (some { sampleLine0 with analogMask := 0x80, power := some 0x0CE4 })] := by
  decide +kernel

/-- V-RX9: a zero length goes to the checksum; V-RX8: its only checksum is 0xFF. -/
theorem test_rx_byte_zero_length :
    (after (exec (.rxByte 0x00) (withRx false (regs .readingLength false 0 1 0)))).map (·.rx) =
      some (regs .readingChecksum false 0 0 0) ∧
    (after (exec (.rxByte 0xFF) (withRx false (regs .readingChecksum false 0 0 0)))).map
        (fun t => (t.frameOut, t.evtOut)) = some ([[]], [.nullPayload]) := by
  decide +kernel

/-- V-TX3 and V-TX11's point; V-TX16. -/
theorem test_tx_frame :
    (after (exec (.txFrame [0x23, 0x11]) (State.resetWith (mode true)))).map (·.txOut) =
      some [[0x7E, 0x00, 0x02, 0x23, 0x7D, 0x31, 0xCB]] ∧
    (after (exec (.txFrame [0x8A, 0x06]) closed)).map (fun t => (t.txOut, t.reqOut)) = some ([], []) := by
  decide +kernel

/-- V-CK5, 8 and 11; V-ES2. -/
theorem test_checksum_and_escape :
    checksum [0xFF, 0x01] = 0xFF ∧ checksum [0x81] = 0x7E ∧
    (after (exec (.checksum [0x06, 0x8A]) State.reset)).map (·.codecOut) = some [.byte 0x6F] ∧
    (after (exec (.escape [0x7E, 0x7D, 0x11, 0x13]) State.reset)).map (·.codecOut) =
      some [.bytes [0x7D, 0x5E, 0x7D, 0x5D, 0x7D, 0x31, 0x7D, 0x33]] := by
  decide +kernel

/-- V-ES7, 8, 10 and 12. -/
theorem test_unescape :
    (after (exec (.unescape false [0x00, 0x02, 0x23, 0x7D]) State.reset)).map (·.codecOut) =
      some [.unescaped [0x00, 0x02, 0x23] true] ∧
    (after (exec (.unescape true [0x31, 0xCB]) State.reset)).map (·.codecOut) =
      some [.unescaped [0x11, 0xCB] false] ∧
    unescapeFrom false [0x7D, 0x7D] = ([0x5D], false) ∧
    unescapeFrom false [0x7E, 0x11, 0x13] = ([0x7E, 0x11, 0x13], false) := by
  decide +kernel

/-- V-DEC20; V-DEC43: length before type. -/
theorem test_decode_operations :
    (after (exec (.decodeFrame [0x8A, 0x06]) State.reset)).map (·.codecOut) =
      some [.packet { packet := modem 6, isBroadcast := false, ioSample := none }] ∧
    (after (exec (.decodeAs .modemStatus [0x90]) State.reset)).map (·.codecOut) =
      some [.failed (.incomplete 2 1)] := by
  decide +kernel

/-- S12: both ends of the range, and one beyond. -/
theorem test_encode :
    (after (exec (.encode (.rx16 { addr16 := 0x1234, rssi := 100, options := 0, rfData := none })) State.reset)).map
        (·.codecOut) = some [.bytes [0x12, 0x34, 0x64, 0x00]] ∧
    (after (exec (.encode (.rx16 { addr16 := 0x1234, rssi := 101, options := 0, rfData := none })) State.reset)).map
        (·.codecOut) = some [.failed (.outOfRange .rssi 101 0 100)] := by
  decide +kernel

/-- V-IOS5, 6 and 9; V-IOS20. -/
theorem test_ios_decode :
    iosDecode Cfg.initial .rx64Io [0x00, 0x01, 0x00, 0xFF, 0xFF] = some sampleLine0 ∧
    (iosDecode Cfg.initial .rx64Io [0x00, 0x00, 0x24, 0x01, 0x00, 0x02, 0x00]).map (·.analog.toList) =
      some [none, none, some 0x0100, none, none, some 0x0200] ∧
    (after (exec (.iosDecode .rx64Io (some [0x00, 0x03, 0x00, 0x00, 0x01])) State.reset)).map
        (fun t => t.codecOut.length) = some 1 ∧
    iosDecode { Cfg.initial with nsampRx64 := true } .rx64Io [0x01, 0x00, 0x00, 0x80, 0x0C] = none := by
  decide +kernel

/-- V-IOS21 and 22. -/
theorem test_ios_power :
    (after (exec (.iosPower samplePower) State.reset)).map (·.codecOut) = some [.power 0x0CE4] ∧
    (after (exec (.iosPower sampleLine0) State.reset)).map (·.codecOut) =
      some [.failed .operationNotSupported] := by
  decide +kernel

/-- V-CORR5. -/
theorem test_send :
    (after (exec (.send (niCommand 1)) State.reset)).map (fun t => (t.txOut, (t.corrAt 1).pending)) =
      some ([[0x7E, 0x00, 0x04, 0x08, 0x01, 0x4E, 0x49, 0x5F]], false) := by
  decide +kernel

/-- V-CORR2, V-CORR9 and V-CORR1. -/
theorem test_send_and_wait :
    (after (exec (.sendAndWait (niCommand 0)) State.reset)).map (fun t => (t.txOut, t.corrAt 0)) =
      some ([[0x7E, 0x00, 0x04, 0x08, 0x00, 0x4E, 0x49, 0x60]], { pending := true, reqType := 0x08 }) ∧
    (after (exec (.sendAndWait (niCommand 7)) (waiting [7]))).map (fun t => (t.txOut, t.reqOut)) =
      some ([], [.frameIdInUse 7]) ∧
    (after (exec (.sendAndWait (modem 6)) State.reset)).map (fun t => (t.txOut, t.reqOut)) =
      some ([], [.noPendingRequest]) := by
  decide +kernel

/-- R304: a full queue loses its oldest packet. -/
theorem test_deliver_full :
    (after (exec (.deliver (modem 5)) { State.reset with lq := [1, 2, 3, 4].map fun n => decodedOf Cfg.initial (modem n) })).map
        (·.lq) = some ([2, 3, 4, 5].map fun n => decodedOf Cfg.initial (modem n)) := by
  decide +kernel

/-- V-CORR6 and V-CORR8. -/
theorem test_corr_timeout :
    (after (exec (.corrTimeout 2) (waiting [2]))).map (fun t => (t.rspOut, (t.corrAt 2).pending)) =
      some ([.failed (.timeout 2)], false) ∧
    (after (exec (.corrTimeout 9) State.reset)).map (·.rspOut) = some [] := by
  decide +kernel

/-- V-CORR7. -/
theorem test_corr_cancel :
    (after (exec (.corrCancel 2) (waiting [2]))).map (fun t => (t.rspOut, (t.corrAt 2).pending)) =
      some ([], false) := by
  decide +kernel

/-- V-CORR10, and a queue with one packet. -/
theorem test_lq_pop :
    (after (exec .lqPop State.reset)).map (·.pktOut) = some [none] ∧
    (after (exec .lqPop { State.reset with lq := [decodedOf Cfg.initial (modem 6)] })).map
        (fun t => (t.pktOut, t.lq)) = some ([some (decodedOf Cfg.initial (modem 6))], []) := by
  decide +kernel

/-- V-RST2's point and V-RST6. -/
theorem test_reset :
    (after (exec .reset (withRx true (regs .readingPayload true 2 0 0)))).map (·.rx) =
      some (regs .awaitingDelimiter false 0 0 0) ∧
    (after (exec .reset (waiting [5]))).map (fun t => (t.rspOut, (t.corrAt 5).pending)) =
      some ([], false) := by
  decide +kernel

/-- V-RST3 and V-RST5. -/
theorem test_close :
    (after (exec .close (waiting [9, 3]))).map (fun t => (t.rspOut, t.connOpen, (t.corrAt 9).pending)) =
      some ([.failed (.connectionClosed (some 3)), .failed (.connectionClosed (some 9))], false, false) ∧
    (after (exec .close closed)).map (fun t => (t.rspOut, t.connOpen)) = some ([], false) := by
  decide +kernel

/-- R317: the port of each error of the receive path and of a codec caller. -/
theorem test_error_rows_decode :
    (after (exec .checksumError (withRx false (regs .readingChecksum false 1 1 7)))).map
        (fun t => (t.rx.state, t.evtOut)) = some (.awaitingDelimiter, [.checksumError]) ∧
    (after (exec (.nullPayload .receivePath) State.reset)).map (·.evtOut) = some [.nullPayload] ∧
    (after (exec (.incomplete 2 1 .caller) State.reset)).map (·.codecOut) = some [.failed (.incomplete 2 1)] ∧
    (after (exec (.wrongFrameType 0x8A 0x90) State.reset)).map (·.codecOut) =
      some [.failed (.wrongFrameType 0x8A 0x90)] ∧
    (after (exec (.unknownFrameType 0x42 .receivePath) State.reset)).map (·.evtOut) =
      some [.unknownFrameType 0x42] ∧
    (after (exec (.outOfRange .rssi 101 0 100 .codecCaller) State.reset)).map (·.codecOut) =
      some [.failed (.outOfRange .rssi 101 0 100)] ∧
    (after (exec .operationNotSupported State.reset)).map (·.codecOut) =
      some [.failed .operationNotSupported] := by
  decide +kernel

/-- R317: the port of each error of a wait and of a transmit caller. -/
theorem test_error_rows_wait :
    (after (exec (.timeout 2) (waiting [2]))).map (fun t => (t.rspOut, (t.corrAt 2).pending)) =
      some ([.failed (.timeout 2)], false) ∧
    (after (exec (.connectionClosed none) closed)).map (·.reqOut) = some [.connectionClosed none] ∧
    (after (exec .noPendingRequest State.reset)).map (·.reqOut) = some [.noPendingRequest] ∧
    (after (exec (.frameIdInUse 7) (waiting [7]))).map (·.reqOut) = some [.frameIdInUse 7] := by
  decide +kernel

/-! ## Witnesses: states and operands that meet the hypotheses of the statements -/

/-- One byte before the end of a two-byte payload. -/
def midFrame : State :=
  withRx false { regs .readingPayload false 2 1 0x8A with buf := [(0, 0x8A)] }

/-- The same, with stale values where nothing is read. -/
def midFrameStale : State :=
  withRx false { regs .readingPayload false 2 1 0x8A with buf := [(0, 0x8A), (1, 0x55), (9, 0x77)] }

/-- The whole payload of a modem status has arrived. -/
def atChecksum : State :=
  withRx false { regs .readingChecksum false 2 2 0x90 with buf := [(0, 0x8A), (1, 0x06)] }

/-- A zero-length frame waits for its checksum. -/
def atChecksumEmpty : State := withRx false (regs .readingChecksum false 0 0 0)

/-- A state with one item waiting. -/
def given (it : Item) (s : State) : State := { s with input := [it] }

theorem resetWith_pending (c : Cfg) (r : Rx) (q : List Item) (f : Byte) :
    ({ State.resetWith c with rx := r, input := q }.corrAt f).pending = false := by
  simp [State.corrAt, State.resetWith, CorrEntry.reset]

/-- A state after reset but for its RX registers and its input is good when these are. -/
theorem inv_resetWith {c : Cfg} {r : Rx} {q : List Item} (hc : c.valid = true) (hb : r.buf.wf = true)
    (hr : RxOk c.escaped r) (hs : SumOk r) :
    Inv { State.resetWith c with rx := r, input := q } where
  cfg := hc
  buf := hb
  rx := hr
  sum := hs
  corr := fun f h => absurd h (by rw [resetWith_pending]; decide)
  closed := fun h => absurd (show true = false from h) (by decide)
  absent := fun _ f => resetWith_pending c r q f
  lq := ⟨Nat.zero_le _, fun _ h => absurd h (by simp [State.resetWith])⟩

theorem rxOk_payload {e : Bool} {r : Rx} (hs : r.state = .readingPayload) (he : e = false → r.esc = false)
    (h : 1 ≤ r.len.toNat ∧ r.cnt.toNat < r.len.toNat) : RxOk e r :=
  ⟨he, by rw [hs]; exact h⟩

theorem sumOk_payload {r : Rx} (hs : r.state = .readingPayload)
    (h : r.sum = byteSum (r.buf.slice r.cnt.toNat)) : SumOk r := by
  unfold SumOk
  rw [hs]
  exact h

theorem inv_midFrame : Inv midFrame :=
  inv_resetWith (q := []) (by decide) (by decide) (rxOk_payload rfl (fun _ => rfl) (by decide))
    (sumOk_payload rfl (by decide))

theorem inv_midFrameStale : Inv midFrameStale :=
  inv_resetWith (q := []) (by decide) (by decide) (rxOk_payload rfl (fun _ => rfl) (by decide))
    (sumOk_payload rfl (by decide))

theorem inv_noUnit5 (q : List Item) : Inv { noUnit5 with input := q } :=
  inv_resetWith (r := Rx.reset) (by decide) (by decide) ⟨fun _ => rfl, rfl⟩ trivial

theorem test_witness_StepRunsTheDecodedInstruction :
    (given (.event .lqPop) midFrame).input = .event .lqPop :: [] ∧
    decode { cfg := midFrame.cfg, rxState := midFrame.rx.state, esc := midFrame.rx.esc } (.event .lqPop) =
      .ok .lqPop ∧
    wellFormed midFrame.cfg .lqPop = true := by
  exact ⟨rfl, rfl, rfl⟩

theorem test_witness_StepWithoutAnInstruction :
    State.reset.input = [] ∧ decodeFrame Cfg.initial [] = .error .nullPayload ∧
    parseFrame false [0x7E, 0x00] = none ∧ iosDecode Cfg.initial .rx64Io [0, 1, 0, 0] = none := by
  decide +kernel

theorem test_witness_EncodedInstructionDecodesBack :
    Cfg.initial.valid = true ∧ wellFormed Cfg.initial (.frame [] 0xFF) = true ∧
    classContext idle (.frame [] 0xFF) = true ∧
    encode Cfg.initial (.frame [] 0xFF) = some (.rxChunk [0x7E, 0x00, 0x00, 0xFF]) ∧
    wellFormed Cfg.initial (.rawNoise 0x7D) = true ∧ classContext idle (.rawNoise 0x7D) = true ∧
    encode Cfg.initial (.rawNoise 0x7D) = some (.rxIn 0x7D) := by
  decide +kernel

theorem test_witness_DecodedItemEncodesBack :
    decode idle (.rxIn 0x7E) = .ok .rawDelimiter ∧
    decode idle (.rxChunk [0x7E, 0x00, 0x00, 0xFF]) = .ok (.frame [] 0xFF) ∧
    decode idle (.stuffed 0x13) = .ok .escPair13 ∧ decode idle (.event .close) = .ok .close ∧
    decode idle (.block .rx16Io [0x00, 0x01, 0x80, 0x00, 0x01, 0x0C, 0xE4]) =
      .ok (.iosBlock .rx16Io blockLine0Power) := by
  decide +kernel

theorem test_witness_RawByteMeaning :
    (State.reset.connOpen = true ∧ State.reset.rx.state = .awaitingDelimiter) ∧
    (midFrame.connOpen = true ∧ midFrame.rx.state ≠ .awaitingDelimiter ∧ midFrame.cfg.escaped = false) ∧
    (let t := withRx true (regs .readingLength false 0 0 0)
     t.connOpen = true ∧ t.rx.state ≠ .awaitingDelimiter ∧ t.cfg.escaped = true ∧ t.rx.esc = false) ∧
    (let t := withRx true (regs .readingChecksum true 0 0 0)
     t.connOpen = true ∧ t.rx.state ≠ .awaitingDelimiter ∧ t.cfg.escaped = true ∧ t.rx.esc = true) := by
  decide +kernel

theorem test_witness_FrameTypeTableIsTheSpecs : Cfg.initial.valid = true := by decide

theorem test_witness_ChecksumAndUnescapeLaws :
    List.Perm [(0x8A : Byte), 0x06] [0x06, 0x8A] ∧ unescapeFrom false [0x23, 0x7D] = ([0x23], true) ∧
    unescapeFrom true [0x31, 0xCB] = ([0x11, 0xCB], false) := by
  exact ⟨List.Perm.swap _ _ _, by decide, by decide⟩

theorem test_witness_EscapedBytesAndFrameShape : (escape [0x11])[0]? = some 0x7D := by decide

theorem test_witness_UnescapeOperationResult : (0x7E : Byte) ≠ 0x7D := by decide

theorem test_witness_DelimiterHuntStep :
    State.reset.connOpen = true ∧ State.reset.rx.state = .awaitingDelimiter ∧ (0x7D : Byte) ≠ 0x7E := by
  decide

/-- Both bytes of the length, a zero length among them, and a special byte behind its marker. -/
theorem test_witness_LengthByteStep :
    (let t := withRx false (regs .readingLength false 0 0 0)
     Delivers t 0x00 0x00 ∧ RowOf t 0x00 (.rawLiteral 0x00) ∧ t.rx.state = .readingLength ∧ t.rx.cnt = 0) ∧
    (let t := withRx true (regs .readingLength true 0 1 0)
     Delivers t 0x31 0x11 ∧ RowOf t 0x31 (.rawEscapedSecond 0x31) ∧ t.rx.state = .readingLength ∧
       t.rx.cnt = 1) := by
  refine ⟨⟨⟨rfl, by decide, .inl ⟨rfl, rfl⟩⟩, .inr (by decide), rfl, rfl⟩,
    ⟨⟨rfl, by decide, .inr (.inl ⟨rfl, rfl, by decide⟩)⟩, .inr (by decide), rfl, rfl⟩⟩

/-- The last byte of a payload, and the last byte of the largest one. -/
theorem test_witness_PayloadByteStep :
    (Delivers midFrame 0x06 0x06 ∧ RowOf midFrame 0x06 (.rxByte 0x06) ∧
      midFrame.rx.state = .readingPayload ∧ midFrame.rx.cnt.toNat < midFrame.rx.len.toNat ∧
      midFrame.rx.buf.wf = true) ∧
    (let t := withRx true (regs .readingPayload false 65535 65534 0)
     Delivers t 0x7E 0x7E ∧ RowOf t 0x7E (.rawLiteral 0x7E) ∧ t.rx.state = .readingPayload ∧
       t.rx.cnt.toNat < t.rx.len.toNat ∧ t.rx.buf.wf = true) := by
  refine ⟨⟨⟨rfl, by decide, .inl ⟨rfl, rfl⟩⟩, .inl rfl, rfl, by decide, by decide⟩,
    ⟨⟨rfl, by decide, .inr (.inr ⟨rfl, rfl, by decide, rfl⟩)⟩, .inr (by decide), rfl, by decide, by decide⟩⟩

/-- A right and a wrong checksum; a payload that decodes and the empty one, which does not. -/
theorem test_witness_ChecksumByteStep :
    (Delivers atChecksum 0x6F 0x6F ∧ RowOf atChecksum 0x6F (.rawLiteral 0x6F) ∧
      atChecksum.rx.state = .readingChecksum ∧ (atChecksum.rx.sum.toNat + (0x6F : Byte).toNat) % 256 = 255 ∧
      decodeFrame atChecksum.cfg (atChecksum.rx.buf.slice atChecksum.rx.len.toNat) = .ok (modem 6)) ∧
    (Delivers atChecksum 0x74 0x74 ∧ RowOf atChecksum 0x74 (.rxByte 0x74) ∧
      (atChecksum.rx.sum.toNat + (0x74 : Byte).toNat) % 256 ≠ 255) ∧
    (Delivers atChecksumEmpty 0xFF 0xFF ∧ RowOf atChecksumEmpty 0xFF (.rxByte 0xFF) ∧
      atChecksumEmpty.rx.state = .readingChecksum ∧
      (atChecksumEmpty.rx.sum.toNat + (0xFF : Byte).toNat) % 256 = 255 ∧
      decodeFrame atChecksumEmpty.cfg (atChecksumEmpty.rx.buf.slice atChecksumEmpty.rx.len.toNat) =
        .error .nullPayload) := by
  refine ⟨⟨⟨rfl, by decide, .inl ⟨rfl, rfl⟩⟩, .inr (by decide), rfl, by decide, by decide +kernel⟩,
    ⟨⟨rfl, by decide, .inl ⟨rfl, rfl⟩⟩, .inl rfl, by decide⟩,
    ⟨⟨rfl, by decide, .inl ⟨rfl, rfl⟩⟩, .inl rfl, rfl, by decide, by decide +kernel⟩⟩

theorem test_witness_RawBytesComplete :
    RxOk true (regs .readingPayload true 65535 65534 0) ∧ RxOk false Rx.reset ∧
    (let t := withRx false (regs .readingPayload false 65535 65535 0)
     Delivers t 0x00 0x00 ∧ RowOf t 0x00 (.rxByte 0x00) ∧ t.rx.state = .readingPayload ∧ t.rx.cnt = 65535) := by
  refine ⟨rxOk_payload rfl (fun h => absurd h (by decide)) (by decide), ⟨fun _ => rfl, rfl⟩,
    ⟨rfl, by decide, .inl ⟨rfl, rfl⟩⟩, .inl rfl, rfl, rfl⟩

theorem test_witness_FramingRoundTrip :
    (State.reset.connOpen = true ∧ State.reset.rx.state = .awaitingDelimiter ∧ State.reset.rx.esc = false ∧
      State.reset.rx.buf.wf = true ∧
      (∀ f ∈ [([(0x41 : Byte)], [(0x8A : Byte), 0x06]), ([], [])], 0x7E ∉ f.1 ∧ f.2.length ≤ 65535) ∧
      0x7E ∉ [(0x55 : Byte)]) ∧
    (zeros 65535).length ≤ 65535 ∧ 3 < (wrap State.reset.cfg.escaped []).length := by
  refine ⟨by decide, ?_, by decide⟩
  rw [zeros_length]

theorem test_witness_WholeFrameIsReceived :
    (State.reset.connOpen = true ∧ State.reset.rx.state = .awaitingDelimiter ∧
      State.reset.rx.buf.wf = true) ∧ (zeros 65535).length ≤ 65535 ∧
    (0x74 : Byte) ≠ checksum [0x8A, 0x06] ∧ (0x6F : Byte) = checksum [0x8A, 0x06] ∧
    decodeFrame Cfg.initial [] = .error .nullPayload ∧
    decodeFrame Cfg.initial [0x8A, 0x06] = .ok (modem 6) := by
  refine ⟨by decide, ?_, by decide, by decide, by decide +kernel, by decide +kernel⟩
  rw [zeros_length]

theorem test_witness_ReadGroupingDoesNotMatter :
    (given (.rxChunk [0x06, 0x6F]) midFrame).input = .rxChunk [0x06, 0x6F] :: [] := by
  rfl

theorem inv_waiting : Inv (waiting [1]) := by
  have h : Inv State.reset := inv_resetWith (r := Rx.reset) (by decide) (by decide) ⟨fun _ => rfl, rfl⟩ trivial
  refine ⟨h.cfg, h.buf, h.rx, h.sum, fun f hf => ⟨.atCommand, ?_⟩, fun hc => absurd hc (by decide),
    fun hc => absurd hc (by decide), h.lq⟩
  have : ((waiting [1]).corrAt f).reqType = 0x08 := by
    simp only [waiting, List.foldl, State.corrAt, Vector.getElem_set] at hf ⊢
    split at hf <;> rename_i h1
    · rw [if_pos h1]
    · simp [State.reset, State.resetWith, CorrEntry.reset] at hf
  rw [this]
  decide

/-- A frame whose packet is queued, one whose packet ends a wait, and a build without unit 5. -/
theorem test_witness_ReceivedPacketsQueueInArrivalOrder :
    (Inv midFrame ∧ ∃ t, feed [0x06, 0x6F] midFrame = .next t ∧ t.lq = [decodedOf Cfg.initial (modem 6)]) ∧
    (Inv (waiting [1]) ∧
      ∃ t, feed [0x7E, 0x00, 0x05, 0x88, 0x01, 0x4E, 0x49, 0x00, 0xDF] (waiting [1]) = .next t ∧
        t.rspOut = [.response 1 (decodedOf Cfg.initial (niResponse 1))]) ∧
    Inv noUnit5 ∧ noUnit5.cfg.corrPresent = false :=
  ⟨⟨inv_midFrame, _, rfl, by decide +kernel⟩, ⟨inv_waiting, _, rfl, by decide +kernel⟩, inv_noUnit5 [], rfl⟩

theorem test_witness_TransmitFrameResult :
    closed.connOpen = false ∧ State.reset.connOpen = true ∧ 65535 < (zeros 65536).length ∧
    (zeros 65535).length ≤ 65535 := by
  refine ⟨rfl, rfl, ?_, ?_⟩ <;> rw [zeros_length]; all_goals decide

theorem test_witness_PacketRoundTrip :
    Cfg.initial.valid = true ∧
    inRange (.rx16 { addr16 := 0x1234, rssi := 100, options := 0, rfData := none }) = true ∧
    decodeFrame Cfg.initial [0x8A, 0x06, 0xFF] = .ok (modem 6) := by
  decide +kernel

theorem test_witness_DecodeTestsInOrder :
    Cfg.initial.valid = true ∧ ftLookup Cfg.initial 0x42 = none ∧
    ftLookup Cfg.initial 0x8A = some .modemStatus ∧ ([] : List Byte).length + 1 < minLength .modemStatus ∧
    (minLength .modemStatus ≤ [(0x06 : Byte)].length + 1 ∧ (0x90 : Byte) ≠ frameCode Cfg.initial .modemStatus ∧
      (0x8A : Byte) = frameCode Cfg.initial .modemStatus) ∧
    (minLength .deviceRequest ≤ [(1 : Byte), 0, 0, 3].length + 1 ∧
      (0xB9 : Byte) = frameCode Cfg.initial .deviceRequest) := by
  decide +kernel

theorem test_witness_LegacyReceiveLayouts : (100 : Byte).toNat ≤ 100 := by decide

theorem test_witness_EmbeddedLengthLayouts :
    Cfg.initial.valid = true ∧ (zeros 255).length ≤ 255 ∧ (zeros 254).length < (255 : Byte).toNat ∧
    (3 ≤ (zeros 3).length ∧ (zeros 3).length < (1 : Byte).toNat + 3) ∧
    (2 ≤ (zeros 2).length ∧ (zeros 2).length < (1 : Byte).toNat + 2) := by
  simp only [zeros_length]
  decide

theorem test_witness_EncodeOperationResult :
    State.reset.cfg.valid = true ∧
    inRange (.deviceRequest { requestId := 1, transport := 0, flags := 0, target := zeros 255, data := none }) =
      true := by
  refine ⟨by decide, ?_⟩
  simp [inRange, zeros_length]

/-- A packet out of range with each name an error can carry; where two fields are out of range, the
first. -/
theorem test_witness_RangeChecksAtConstruction :
    (inRange (.tx16 { frameId := 1, addr16 := 0, options := 0, rfData := some [] }) = false ∧
      fieldOutOfRange (.tx16 { frameId := 1, addr16 := 0, options := 0, rfData := some [] }) = some .rfData) ∧
    fieldOutOfRange (.atCommand { frameId := 1, command := (0x4E, 0x49), parameter := some [] }) =
      some .parameter ∧
    fieldOutOfRange (.atCommandResponse
      { frameId := 1, command := (0x4E, 0x49), status := 0, value := some [] }) = some .value ∧
    (inRange (.rx16 { addr16 := 0, rssi := 101, options := 0, rfData := some [] }) = false ∧
      fieldOutOfRange (.rx16 { addr16 := 0, rssi := 101, options := 0, rfData := some [] }) = some .rssi) ∧
    fieldOutOfRange (.deviceRequest
      { requestId := 1, transport := 0, flags := 0, target := zeros 255, data := some [] }) = some .data ∧
    fieldOutOfRange (.sendDataRequest
      { frameId := 1, path := zeros 255, contentType := zeros 255, transport := 0, options := 0,
        fileData := some [] }) = some .fileData ∧
    State.reset.cfg.corrPresent = true ∧
    (packetRssi (.rx16 { addr16 := 0, rssi := 101, options := 0, rfData := none }) = some 101 ∧
      100 < (101 : Byte).toNat) ∧
    255 < (zeros 256).length ∧ (zeros 255).length ≤ 255 := by
  simp only [fieldOutOfRange, zeros_length]
  decide +kernel

theorem test_witness_IosDecodeIsItsPseudocode :
    iosReference false [0x00, 0x01, 0x00, 0x00, 0x01] = some sampleLine0 := by
  decide +kernel

/-- A block that needs 7 bytes, and two prefixes of it that are one byte short of a bound. -/
theorem test_witness_IosBlockRowAndLength :
    blockOk Cfg.initial .rx16Io blockLine0Power = true ∧
    (iosDecode Cfg.initial .rx16Io [0x00, 0x01, 0x80, 0x00, 0x01, 0x0C, 0xE4]).isSome = true ∧
    4 < 5 ∧ 6 < blockNeed (nsampPresent Cfg.initial .rx16Io) 1 0x80 := by
  decide +kernel

theorem test_witness_IosPowerResult : samplePower.power = some 0x0CE4 ∧ sampleLine0.power = none := by
  decide

theorem resolves_waiting : Resolves (waiting [1]) 1 (niResponse 1) :=
  ⟨rfl, rfl, by decide +kernel, by decide +kernel⟩

theorem test_witness_DeliverResolvesOrQueues :
    Resolves (waiting [1]) 1 (niResponse 1) ∧ ∀ f, ¬ Resolves (waiting [1]) f (modem 6) :=
  ⟨resolves_waiting, fun _ h => absurd h.2.1 (by simp [packetFrameId, modem])⟩

theorem test_witness_ResponseFamilyTable : Cfg.initial.valid = true := by decide

theorem test_witness_FirstMatchWins :
    Resolves (waiting [1]) 1 (niResponse 1) ∧ packetFrameId (niResponse 1) = some 1 ∧
    ∃ t, exec (.deliver (niResponse 1)) (waiting [1]) = .next t :=
  ⟨resolves_waiting, rfl, _, rfl⟩

/-- A packet whose payload is one byte longer than the length field can say. -/
def tooLong : Packet := .tx16 { frameId := 1, addr16 := 0, options := 0, rfData := some (zeros 65531) }

theorem tooLong_length : (payloadOf Cfg.initial tooLong).length = 65536 := by
  simp [payloadOf, tooLong, encodeBody, trailingBytes, bytes2, bytesN, zeros_length]

theorem tooLong_inRange : inRange tooLong = true := by
  have h : zeros 65531 ≠ [] := fun h => by
    have := zeros_length 65531
    rw [h] at this
    simp at this
  simp [inRange, tooLong, h]

theorem test_witness_SendOperationResult :
    inRange (.rx16 { addr16 := 0, rssi := 101, options := 0, rfData := none }) = false ∧
    (inRange (modem 6) = true ∧ closed.connOpen = false ∧ State.reset.connOpen = true ∧
      (payloadOf Cfg.initial (modem 6)).length ≤ 65535) ∧
    (inRange tooLong = true ∧ 65535 < (payloadOf Cfg.initial tooLong).length) := by
  refine ⟨by decide, by decide, tooLong_inRange, ?_⟩
  rw [tooLong_length]
  decide

theorem test_witness_SendAndWaitResult :
    State.reset.cfg.corrPresent = true ∧
    inRange (.rx16 { addr16 := 0, rssi := 101, options := 0, rfData := none }) = false ∧
    (inRange tooLong = true ∧ 65535 < (payloadOf Cfg.initial tooLong).length) ∧
    (inRange (modem 6) = true ∧ packetFrameId (modem 6) = none) ∧
    (inRange (niCommand 255) = true ∧ (payloadOf Cfg.initial (niCommand 255)).length ≤ 65535 ∧
      packetFrameId (niCommand 255) = some 255 ∧ closed.connOpen = false ∧ (waiting [255]).connOpen = true ∧
      ((waiting [255]).corrAt 255).pending = true ∧ (State.reset.corrAt 255).pending = false) := by
  refine ⟨rfl, by decide, ⟨tooLong_inRange, ?_⟩, by decide, by decide +kernel⟩
  rw [tooLong_length]
  decide

theorem test_witness_TimeoutAndCancelResults :
    (waiting [0]).cfg.corrPresent = true ∧ ((waiting [0]).corrAt 0).pending = true ∧
    ((waiting [0]).corrAt 255).pending = false := by
  decide +kernel

theorem test_witness_BuildWithoutTheCorrelationUnit : noUnit5.cfg.corrPresent = false := by decide

/-- A step that ends a wait, and one that starts it. -/
theorem test_witness_EveryWaitEndsOnce :
    (∃ t, step (given (.event (.corrTimeout 2)) (waiting [2])) = .next t ∧ (t.corrAt 2).pending = false) ∧
    ((given (.event (.corrTimeout 2)) (waiting [2])).corrAt 2).pending = true ∧
    (∃ t, step (given (.event (.sendAndWait (niCommand 2))) State.reset) = .next t ∧
      (t.corrAt 2).pending = true) := by
  refine ⟨⟨_, rfl, by decide +kernel⟩, by decide +kernel, ⟨_, rfl, by decide +kernel⟩⟩

theorem test_witness_PopTakesTheHead :
    State.reset.lq = [] ∧
    ({ State.reset with lq := [decodedOf Cfg.initial (modem 6)] }).lq = decodedOf Cfg.initial (modem 6) :: [] := by
  exact ⟨rfl, rfl⟩

theorem test_witness_ErrorRowsResults :
    ∃ e i j, e = ErrorEvent.incomplete 2 1 ∧ i = Instr.incomplete 2 1 .caller ∧
      j = Instr.incomplete 2 1 .receivePath :=
  ⟨_, _, _, rfl, rfl, rfl⟩

theorem test_witness_CloseOperationResult : closed.connOpen = false ∧ (waiting [0, 255]).connOpen = true := by
  decide

theorem closedOk_closed : ClosedOk closed := by
  refine fun _ => ⟨rfl, fun f => ?_⟩
  simp [closed, State.corrAt, State.reset, State.resetWith, CorrEntry.reset]

/-- A closed connection with unit 5, and one in a build without it. -/
theorem test_witness_BehaviourWhileClosed :
    closed.connOpen = false ∧ ClosedOk closed ∧ closed.cfg.corrPresent = true ∧ inRange (modem 6) = true ∧
    (inRange (niCommand 0) = true ∧ (payloadOf closed.cfg (niCommand 0)).length ≤ 65535 ∧
      packetFrameId (niCommand 0) = some 0) ∧
    (let t := { noUnit5 with connOpen := false }
     t.connOpen = false ∧ ClosedOk t ∧ t.cfg.corrPresent = false) :=
  ⟨rfl, closedOk_closed, rfl, by decide, by decide, rfl,
    fun _ => ⟨rfl, (inv_noUnit5 []).absent rfl⟩, rfl⟩

theorem test_witness_CodecOperationsArePure :
    (∃ p, Instr.checksum [] = .checksum p) ∧ State.reset.cfg = Cfg.initial :=
  ⟨⟨_, rfl⟩, rfl⟩

/-- A step of the receive path that changes the RX registers. -/
theorem test_witness_EachAgentWritesItsOwnState :
    (given (.rxIn 0x7E) State.reset).input = .rxIn 0x7E :: [] ∧
    ∃ t, step (given (.rxIn 0x7E) State.reset) = .next t ∧ t.rx ≠ State.reset.rx :=
  ⟨rfl, _, rfl, by decide⟩

/-- Two different good states with one view, a step from it, and a step that is refused. -/
theorem test_witness_StaleRegistersAreUnobservable :
    (Inv midFrame ∧ Inv midFrameStale ∧ SameView midFrame midFrameStale ∧
      midFrame.rx.buf ≠ midFrameStale.rx.buf ∧ ∃ t, step midFrame = .next t) ∧
    (let t := given (.event (.corrCancel 0)) noUnit5
     Inv t ∧ SameView t t ∧ step t = .refused .corrAbsent) := by
  refine ⟨⟨inv_midFrame, inv_midFrameStale, ⟨⟨rfl, rfl, fun _ => ⟨rfl, rfl, rfl⟩, fun _ => by decide⟩,
    fun f => ⟨rfl, fun _ => rfl⟩, rfl, rfl, rfl, rfl, rfl, rfl, rfl, rfl, rfl, rfl, rfl⟩, by decide, _, rfl⟩,
    inv_noUnit5 _, ⟨⟨rfl, rfl, fun _ => ⟨rfl, rfl, rfl⟩, fun _ => rfl⟩, fun f => ⟨rfl, fun _ => rfl⟩,
    rfl, rfl, rfl, rfl, rfl, rfl, rfl, rfl, rfl, rfl, rfl⟩, rfl⟩

theorem test_witness_StepKeepsTheInvariants : Inv midFrame ∧ ∃ t, step midFrame = .next t :=
  ⟨inv_midFrame, _, rfl⟩

theorem test_witness_ResetSatisfiesTheInvariants :
    ({ Cfg.initial with lqDepth := 1, ftDeviceRequest := 0x28, ftSendDataRequest := 0xB9 }).valid = true := by
  decide

theorem test_witness_EveryStepHasAResult :
    Inv midFrame ∧ Inv (given (.event (.corrTimeout 9)) noUnit5) ∧ noUnit5.cfg.corrPresent = false ∧
    isWaitItem (.event (.corrTimeout 9)) = true :=
  ⟨inv_midFrame, inv_noUnit5 _, rfl, rfl⟩

end Sys2Proof.Tests
end

section
/-! SUPPORT. The byte codec: the byte sum as a number, the checksum as its complement, and UNESCAPE_FROM
reading ESCAPE back. -/

namespace Sys2Proof.Machine

/-! ## The operations on `CODEC` -/

theorem exec_checksum (p : List Byte) (s : State) :
    exec (.checksum p) s = .next (s.pushCodec (.byte (checksum p))) := rfl

theorem exec_escape (r : List Byte) (s : State) :
    exec (.escape r) s = .next (s.pushCodec (.bytes (escape r))) := rfl

theorem exec_unescape (e : Bool) (w : List Byte) (s : State) :
    exec (.unescape e w) s =
      .next (s.pushCodec (.unescaped (unescapeFrom e w).1 (unescapeFrom e w).2)) := rfl

/-! ## The sum and the checksum -/

/-- The running sum modulo 256 is the sum of the byte values, reduced once at the end (R140). -/
theorem byteSum_eq_ofNat (p : List Byte) :
    byteSum p = BitVec.ofNat 8 (p.map (·.toNat)).sum := by
  induction p using List.reverseRecOn with
  | nil => rfl
  | append_singleton p b ih => simp [ih, BitVec.ofNat_add]

theorem byteSum_toNat (p : List Byte) : (byteSum p).toNat = (p.map (·.toNat)).sum % 256 := by
  rw [byteSum_eq_ofNat, BitVec.toNat_ofNat]

/-- The checksum is the complement of the sum (R141). -/
theorem checksum_eq_not (p : List Byte) : checksum p = ~~~byteSum p :=
  BitVec.allOnes_sub_eq_not _

theorem checksum_toNat (p : List Byte) :
    (checksum p).toNat = 255 - (p.map (·.toNat)).sum % 256 := by
  rw [checksum_eq_not, BitVec.toNat_not, byteSum_toNat]

theorem checksum_eq_ofNat (p : List Byte) :
    checksum p = BitVec.ofNat 8 (255 - (p.map (·.toNat)).sum % 256) := by
  rw [← checksum_toNat, BitVec.ofNat_toNat, BitVec.setWidth_eq]

theorem checksumOk_iff_eq_checksum (p : List Byte) (c : Byte) :
    checksumOk (byteSum p) c = true ↔ c = checksum p :=
  checksumOk_iff _ _

/-! ## Escaping -/

/-- The special bytes are those of R145. -/
theorem isSpecial_iff (b : Byte) :
    isSpecial b = true ↔ b = 0x7E ∨ b = 0x7D ∨ b = 0x11 ∨ b = 0x13 := by
  simp [isSpecial, or_assoc]

/-- A byte that is not special is not the escape marker. -/
theorem ne_marker_of_not_special {b : Byte} (h : isSpecial b = false) : b ≠ 0x7D := by
  rintro rfl
  simp [isSpecial] at h

theorem escapeByte_special {b : Byte} (h : isSpecial b = true) :
    escapeByte b = [0x7D, b ^^^ 0x20] := if_pos h

theorem escapeByte_literal {b : Byte} (h : isSpecial b = false) : escapeByte b = [b] := by
  simp [escapeByte, h]

theorem unescapeFrom_pending (b : Byte) (w : List Byte) :
    unescapeFrom true (b :: w) =
      ((b ^^^ 0x20) :: (unescapeFrom false w).1, (unescapeFrom false w).2) := rfl

theorem unescapeFrom_marker (w : List Byte) :
    unescapeFrom false (0x7D :: w) = unescapeFrom true w := rfl

theorem unescapeFrom_literal {b : Byte} (h : b ≠ 0x7D) (w : List Byte) :
    unescapeFrom false (b :: w) =
      (b :: (unescapeFrom false w).1, (unescapeFrom false w).2) := by
  have hbyte : unescapeByte false b = (false, some b) := if_neg h
  rw [unescapeFrom_cons, hbyte]
  rfl

/-- The raw form of one byte is read back as that byte, with no marker pending, whatever follows. -/
theorem unescapeFrom_escapeByte (b : Byte) (w : List Byte) :
    unescapeFrom false (escapeByte b ++ w) =
      (b :: (unescapeFrom false w).1, (unescapeFrom false w).2) := by
  cases h : isSpecial b with
  | true =>
    rw [escapeByte_special h, List.cons_append, List.cons_append, List.nil_append,
      unescapeFrom_marker, unescapeFrom_pending, xor_mask_twice]
  | false =>
    rw [escapeByte_literal h, List.singleton_append,
      unescapeFrom_literal (ne_marker_of_not_special h)]

/-- UNESCAPE of ESCAPE, byte by byte (R149). -/
theorem unescapeFrom_escape (r : List Byte) : unescapeFrom false (escape r) = (r, false) := by
  induction r with
  | nil => rfl
  | cons b r ih => rw [escape_cons, unescapeFrom_escapeByte, ih]

/-! ## The obligations of the byte codec -/

/-- Settles O8: the byte sum is the sum of the byte values modulo 256, and the operation only appends
to `CODEC`. -/
theorem checksumOperationResult : Obligations.ChecksumOperationResult := by
  intro p s
  rw [exec_checksum, checksum_eq_ofNat]
  rfl

/-- Settles O9: the checksum is the complement of the byte sum, so it is the one byte that adds up to
255 with it. -/
theorem checksumInvariantAndVerification : Obligations.ChecksumInvariantAndVerification := by
  intro p c
  have hsum : (checksum p).toNat + (p.map (·.toNat)).sum % 256 = 255 := by
    rw [checksum_toNat]
    omega
  refine ⟨by rw [hsum], ?_, ?_, checksumOk_iff_eq_checksum p c⟩
  · rw [← byteSum_eq_ofNat, checksum_eq_not, BitVec.or_comm]
    exact BitVec.or_not_self _
  · rw [checksumOk_iff_eq_checksum, ← BitVec.toNat_inj]
    omega

/-- Settles O11: ESCAPE maps each byte by the test of R145. -/
theorem escapeOperationResult : Obligations.EscapeOperationResult := by
  intro r s
  have hbyte : escapeByte = fun b =>
      if b = 0x7E ∨ b = 0x7D ∨ b = 0x11 ∨ b = 0x13 then [0x7D, b ^^^ 0x20] else [b] := by
    funext b
    simp only [escapeByte, isSpecial_iff]
  rw [exec_escape, escape, hbyte]
  rfl

/-- Settles O15, by UNESCAPE reading back the raw form of each byte in turn. -/
theorem unescapeInvertsEscape : Obligations.UnescapeInvertsEscape := by
  intro r s
  rw [exec_unescape, unescapeFrom_escape]
  rfl

end Sys2Proof.Machine
end

section
/-! SUPPORT. The RX framer, byte by byte: every stream-byte row is `RX_BYTE` of its byte, a byte that
delivers a logical byte is the count logic on it, and the steps of the states it can find. -/

namespace Sys2Proof.Machine

/-! ## Receiving one raw byte -/

theorem exec_rxByte (b : Byte) (s : State) : exec (.rxByte b) s = receive b s := rfl

theorem exec_deliver (p : Packet) (s : State) :
    exec (.deliver p) s = .next (deliver (decodedOf s.cfg p) s) := rfl

theorem inFrame_iff (s : State) : inFrame s = true ↔ s.rx.state ≠ .awaitingDelimiter := by
  simp [inFrame]

theorem stepAwait_delimiter (s : State) : stepAwait 0x7E s = startFrame s := if_pos rfl

theorem stepAwait_noise {b : Byte} (hb : b ≠ 0x7E) (s : State) : stepAwait b s = s := if_neg hb

theorem receive_awaiting {s : State} (b : Byte) (ho : s.connOpen = true)
    (ha : s.rx.state = .awaitingDelimiter) : receive b s = .next (stepAwait b s) := by
  simp [receive, ho, ha]

theorem receive_inFrame {s : State} (b : Byte) (ho : s.connOpen = true)
    (hn : s.rx.state ≠ .awaitingDelimiter) : receive b s = stepInFrame b s := by
  rw [receive, if_pos ho]
  cases hs : s.rx.state with
  | awaitingDelimiter => exact absurd hs hn
  | readingLength => rfl
  | readingPayload => rfl
  | readingChecksum => rfl

/-- In escaped mode, with no marker pending, 0x7D sets `RX.esc` and delivers nothing (R163). -/
theorem receive_marker {s : State} (ho : s.connOpen = true)
    (hn : s.rx.state ≠ .awaitingDelimiter) (he : s.cfg.escaped = true) (hx : s.rx.esc = false) :
    receive 0x7D s = .next (s.setRx { s.rx with esc := true }) := by
  rw [receive_inFrame _ ho hn, stepInFrame, he, hx]
  rfl

/-- The state in which the count logic meets a logical byte: `RX.esc` has moved, nothing else (R163). -/
def afterUnescape (s : State) : State := s.setRx { s.rx with esc := escAfter s }

@[simp] theorem afterUnescape_state (s : State) : (afterUnescape s).rx.state = s.rx.state := rfl
@[simp] theorem afterUnescape_len (s : State) : (afterUnescape s).rx.len = s.rx.len := rfl
@[simp] theorem afterUnescape_cnt (s : State) : (afterUnescape s).rx.cnt = s.rx.cnt := rfl
@[simp] theorem afterUnescape_sum (s : State) : (afterUnescape s).rx.sum = s.rx.sum := rfl

/-- Without a pending marker the unescape stage of a logical byte changes nothing. -/
theorem afterUnescape_of_not_pending {s : State} (h : s.rx.esc = false) : afterUnescape s = s := by
  have hesc : escAfter s = s.rx.esc := by simp [escAfter, h]
  rw [afterUnescape, hesc]
  rfl

/-- In escaped mode a logical byte leaves no marker pending. -/
theorem afterUnescape_of_escaped {s : State} (h : s.cfg.escaped = true) :
    afterUnescape s = s.setRx { s.rx with esc := false } := by
  have hesc : escAfter s = false := by simp [escAfter, h]
  rw [afterUnescape, hesc]

/-- The three ways in which `Delivers` gives a logical byte are those of the unescape stage. -/
theorem unescapeStage_of_delivers {s : State} {b u : Byte} (h : Delivers s b u) :
    unescapeStage s.cfg.escaped s.rx.esc b = (escAfter s, some u) := by
  obtain ⟨-, -, ⟨he, rfl⟩ | ⟨he, hx, rfl⟩ | ⟨he, hx, hb, rfl⟩⟩ := h
  · rw [unescapeStage, escAfter, he]
    rfl
  · rw [unescapeStage, escAfter, he, hx]
    rfl
  · rw [unescapeStage, escAfter, he, hx]
    exact if_neg hb

/-- A raw byte that delivers `u` is the count logic on `u` (R160). -/
theorem receive_of_delivers {s : State} {b u : Byte} (h : Delivers s b u) :
    receive b s = countLogic u (afterUnescape s) := by
  have ⟨ho, hn, _⟩ := h
  rw [receive_inFrame b ho hn, stepInFrame, unescapeStage_of_delivers h]
  rfl

/-! ## The stream-byte rows (R95)

Each row has a meaning of its own under its condition and is `RX_BYTE` outside it (entry 8). The two
agree, so a row is `RX_BYTE` of its byte in every state. -/

theorem exec_rawDelimiter (s : State) : exec .rawDelimiter s = receive 0x7E s := by
  change execRawDelimiter s = _
  unfold execRawDelimiter
  split
  case isFalse => rfl
  case isTrue hc =>
    obtain ⟨ho, ha⟩ : s.connOpen = true ∧ s.rx.state = .awaitingDelimiter := by
      simpa [inFrame] using hc
    rw [receive_awaiting _ ho ha, stepAwait_delimiter]

theorem exec_rawNoise (b : Byte) (s : State) : exec (.rawNoise b) s = receive b s := by
  change execRawNoise b s = _
  unfold execRawNoise
  split
  case isFalse => rfl
  case isTrue hc =>
    obtain ⟨⟨ho, ha⟩, hb⟩ : (s.connOpen = true ∧ s.rx.state = .awaitingDelimiter) ∧ b ≠ 0x7E := by
      simpa [inFrame] using hc
    rw [receive_awaiting _ ho ha, stepAwait_noise hb]

theorem exec_rawEscapeMarker (s : State) : exec .rawEscapeMarker s = receive 0x7D s := by
  change execRawEscapeMarker s = _
  unfold execRawEscapeMarker
  split
  case isFalse => rfl
  case isTrue hc =>
    simp only [Bool.and_eq_true, Bool.not_eq_true', inFrame_iff] at hc
    obtain ⟨⟨⟨ho, hn⟩, he⟩, hx⟩ := hc
    rw [receive_marker ho hn he hx]

theorem exec_rawEscapedSecond (b : Byte) (s : State) :
    exec (.rawEscapedSecond b) s = receive b s := by
  change execRawEscapedSecond b s = _
  unfold execRawEscapedSecond
  split
  case isFalse => rfl
  case isTrue hc =>
    simp only [Bool.and_eq_true, inFrame_iff] at hc
    obtain ⟨⟨⟨ho, hn⟩, he⟩, hx⟩ := hc
    have hd : Delivers s b (b ^^^ 0x20) := ⟨ho, hn, .inr (.inl ⟨he, hx, rfl⟩)⟩
    rw [receive_of_delivers hd, afterUnescape_of_escaped he]

theorem exec_rawLiteral (b : Byte) (s : State) : exec (.rawLiteral b) s = receive b s := by
  change execRawLiteral b s = _
  unfold execRawLiteral
  split
  case isFalse => rfl
  case isTrue hc =>
    simp only [Bool.and_eq_true, Bool.or_eq_true, Bool.not_eq_true', bne_iff_ne, inFrame_iff] at hc
    obtain ⟨⟨⟨ho, hn⟩, hx⟩, hmode⟩ := hc
    have hd : Delivers s b b := by
      refine ⟨ho, hn, ?_⟩
      cases he : s.cfg.escaped with
      | false => exact .inl ⟨rfl, rfl⟩
      | true => exact .inr (.inr ⟨rfl, hx, by simpa [he] using hmode, rfl⟩)
    rw [receive_of_delivers hd, afterUnescape_of_not_pending hx]

/-- The row R95 gives a raw byte is `RX_BYTE` of it, in every state, open or closed. -/
theorem exec_classify (b : Byte) (s : State) : exec (classify (ctxOf s) b) s = receive b s := by
  unfold classify
  split
  · split
    case isTrue hb => rw [hb, exec_rawDelimiter]
    case isFalse => exact exec_rawNoise b s
  all_goals
    split
    · split
      · exact exec_rawEscapedSecond b s
      · split
        case isTrue hb => rw [hb, exec_rawEscapeMarker]
        case isFalse => exact exec_rawLiteral b s
    · exact exec_rawLiteral b s

theorem exec_of_rowOf {s : State} {b : Byte} {i : Instr} (h : RowOf s b i) :
    exec i s = receive b s := by
  obtain rfl | hi := h
  · exact exec_rxByte b s
  · obtain rfl : classify (ctxOf s) b = i := Except.ok.inj hi
    exact exec_classify b s

/-- Whichever row a raw byte runs as, if it delivers `u` it is the count logic on `u`. -/
theorem exec_of_delivers {s : State} {b u : Byte} {i : Instr} (hd : Delivers s b u)
    (hi : RowOf s b i) : exec i s = countLogic u (afterUnescape s) := by
  rw [exec_of_rowOf hi, receive_of_delivers hd]

/-! ## The count logic, state by state -/

theorem countLogic_payload {s : State} (u : Byte) (h : s.rx.state = .readingPayload) :
    countLogic u s = stepPayload u s := by
  simp [countLogic, h]

theorem countLogic_checksum {s : State} (u : Byte) (h : s.rx.state = .readingChecksum) :
    countLogic u s = .next (stepChecksum u s) := by
  simp [countLogic, h]

/-- The count reaches the length exactly when it does so as a number: below the length it does not
wrap around. -/
theorem count_succ_eq_iff {cnt len : U16} (h : cnt.toNat < len.toNat) :
    cnt + 1 = len ↔ cnt.toNat + 1 = len.toNat := by
  constructor <;> intro _ <;> bv_omega

/-- A count below the length is an index of the buffer (R27, R28). -/
theorem count_lt_bufSize {cnt len : U16} (h : cnt.toNat < len.toNat) : cnt.toNat < bufSize := by
  have := len.isLt
  unfold bufSize
  omega

/-- The payload step below the length (R167). -/
theorem stepPayload_next {s : State} (u : Byte) (hs : s.rx.state = .readingPayload)
    (h : s.rx.cnt.toNat < s.rx.len.toNat) :
    stepPayload u s = .next (s.setRx { s.rx with
      buf := s.rx.buf.write s.rx.cnt.toNat u, sum := s.rx.sum + u, cnt := s.rx.cnt + 1,
      state := if s.rx.cnt.toNat + 1 = s.rx.len.toNat then .readingChecksum
               else .readingPayload }) := by
  obtain ⟨-, hstep⟩ | ⟨hfull, -⟩ := stepPayload_cases u s
  · simp only [hstep, hs, count_succ_eq_iff h]
  · exact absurd (count_lt_bufSize h) (Nat.not_lt.mpr hfull)

/-- The verdict of R142 over the numbers. -/
theorem checksumOk_iff_mod (sum c : Byte) :
    checksumOk sum c = true ↔ (sum.toNat + c.toNat) % 256 = 255 := by
  rw [checksumOk, beq_iff_eq, ← BitVec.toNat_inj, BitVec.toNat_add]
  rfl

theorem stepChecksum_bad {s : State} {u : Byte} (h : checksumOk s.rx.sum u = false) :
    stepChecksum u s = checksumFailed s := by
  simp [stepChecksum, h]

theorem stepChecksum_good {s : State} {u : Byte} (h : checksumOk s.rx.sum u = true) :
    stepChecksum u s = dispatch (s.rx.buf.slice s.rx.len.toNat)
      ((s.setRx { s.rx with state := .awaitingDelimiter }).pushFrame
        (s.rx.buf.slice s.rx.len.toNat)) := if_pos h

theorem dispatch_error {p : List Byte} {e : ErrorEvent} {s : State}
    (h : decodeFrame s.cfg p = .error e) : dispatch p s = s.pushEvt e := by
  rw [dispatch, h]
  rfl

theorem dispatch_ok {p : List Byte} {pkt : Packet} {s : State}
    (h : decodeFrame s.cfg p = .ok pkt) : dispatch p s = deliver (decodedOf s.cfg pkt) s := by
  rw [dispatch, h]

/-! ## The obligations of the RX framer -/

/-- Settles O18: below its length the payload step writes the buffer at an index it has. -/
theorem payloadByteStep : Obligations.PayloadByteStep := by
  intro s b u i hd hi hs hcnt hwf
  have hstate : (afterUnescape s).rx.state = .readingPayload := by rw [afterUnescape_state, hs]
  have hroom : (afterUnescape s).rx.cnt.toNat < (afterUnescape s).rx.len.toNat := by
    rwa [afterUnescape_cnt, afterUnescape_len]
  refine ⟨s.rx.buf.write s.rx.cnt.toNat u, ?_, Memory.write_wf hwf (count_lt_bufSize hcnt), ?_⟩
  · rw [exec_of_delivers hd hi, countLogic_payload u hstate, stepPayload_next u hstate hroom]
    rfl
  · intro a
    rw [Memory.read_write hwf]
    simp only [eq_comm]

/-- Settles O19, by the verdict on the sum and then by whether the payload decodes. -/
theorem checksumByteStep : Obligations.ChecksumByteStep := by
  intro s b u i hd hi hs r p
  have hstate : (afterUnescape s).rx.state = .readingChecksum := by rw [afterUnescape_state, hs]
  have hverdict : checksumOk (afterUnescape s).rx.sum u = true ↔
      (s.rx.sum.toNat + u.toNat) % 256 = 255 := by
    rw [afterUnescape_sum, checksumOk_iff_mod]
  rw [exec_of_delivers hd hi, countLogic_checksum u hstate]
  constructor
  · intro hsum
    rw [stepChecksum_bad (Bool.eq_false_iff.mpr (mt hverdict.mp hsum))]
    rfl
  · intro hsum
    have hgood : stepChecksum u (afterUnescape s) = dispatch p ((s.setRx r).pushFrame p) :=
      stepChecksum_good (hverdict.mpr hsum)
    rw [hgood]
    constructor
    · intro e he
      rw [dispatch_error (s := (s.setRx r).pushFrame p) he]
      rfl
    · intro pkt hpkt
      rw [dispatch_ok (s := (s.setRx r).pushFrame p) hpkt, exec_deliver]
      rfl

/-- Settles O16: both rows are RX_BYTE of their byte, which is the delimiter test alone here. -/
theorem delimiterHuntStep : Obligations.DelimiterHuntStep := by
  intro s ho ha
  constructor
  · intro i hi
    have hrow : exec i s = receive 0x7E s := by
      obtain rfl | rfl := hi
      · exact exec_rxByte 0x7E s
      · exact exec_rawDelimiter s
    rw [hrow, receive_awaiting _ ho ha, stepAwait_delimiter]
    rfl
  · intro b i hb hi
    have hrow : exec i s = receive b s := by
      obtain rfl | rfl := hi
      · exact exec_rxByte b s
      · exact exec_rawNoise b s
    rw [hrow, receive_awaiting _ ho ha, stepAwait_noise hb]

end Sys2Proof.Machine
end

section
/-! SUPPORT. The fields of a layout, both ways: reading a field behind what stands before it, and
writing back a field that was read. -/

namespace Sys2Proof.Machine

/-! ## Big-endian forms -/

theorem beOf_lt (l : List Byte) : beOf l < 256 ^ l.length := by
  induction l with
  | nil => exact Nat.one_pos
  | cons x l ih =>
    have hx : x.toNat + 1 ≤ 256 := x.isLt
    have := Nat.mul_le_mul_right (256 ^ l.length) hx
    rw [beOf_cons, List.length_cons, pow_succ]
    linarith

/-- What lies above its width does not appear in a big-endian form. -/
theorem bytesN_add_mul (n k v : Nat) : bytesN n (k * 256 ^ n + v) = bytesN n v := by
  induction n generalizing k with
  | zero => rfl
  | succ n ih =>
    have hdigits : k * 256 ^ (n + 1) + v = k * 256 * 256 ^ n + v := by ring
    have hbyte : (k * 256 * 256 ^ n + v) / 256 ^ n = k * 256 + v / 256 ^ n := by
      rw [Nat.add_comm, Nat.add_mul_div_right _ _ (by positivity), Nat.add_comm]
    rw [hdigits, bytesN, bytesN, ih, hbyte]
    simp [BitVec.ofNat_add, BitVec.ofNat_mul]

/-- The big-endian form of the number of a sequence is the sequence (R64). -/
theorem bytesN_beOf {n : Nat} {l : List Byte} (h : l.length = n) : bytesN n (beOf l) = l := by
  subst h
  induction l with
  | nil => rfl
  | cons x l ih =>
    have hhead : (x.toNat * 256 ^ l.length + beOf l) / 256 ^ l.length = x.toNat := by
      rw [Nat.add_comm, Nat.add_mul_div_right _ _ (by positivity), Nat.div_eq_of_lt (beOf_lt l),
        Nat.zero_add]
    rw [List.length_cons, bytesN, beOf_cons, hhead, bytesN_add_mul, ih, BitVec.ofNat_toNat,
      BitVec.setWidth_eq]

theorem bytes2_ofNat_beOf {l : List Byte} (h : l.length = 2) :
    bytes2 (BitVec.ofNat 16 (beOf l)) = l := by
  have hlt : beOf l < 2 ^ 16 := by
    have := beOf_lt l
    rw [h] at this
    omega
  rw [bytes2, BitVec.toNat_ofNat, Nat.mod_eq_of_lt hlt, bytesN_beOf h]

theorem bytes8_ofNat_beOf {l : List Byte} (h : l.length = 8) :
    bytes8 (BitVec.ofNat 64 (beOf l)) = l := by
  have hlt : beOf l < 2 ^ 64 := by
    have := beOf_lt l
    rw [h] at this
    omega
  rw [bytes8, BitVec.toNat_ofNat, Nat.mod_eq_of_lt hlt, bytesN_beOf h]

/-- One more byte below a bit vector is one more digit of its number. -/
theorem toNat_append_byte {n : Nat} (x : BitVec n) (y : Byte) :
    (x ++ y).toNat = x.toNat * 256 + y.toNat := by
  rw [BitVec.toNat_append, ← Nat.shiftLeft_add_eq_or_of_lt y.isLt, Nat.shiftLeft_eq]

/-- The bytes of a 16-bit field written as two bytes (R97). -/
@[simp] theorem bytes2_append (h l : Byte) : bytes2 (h ++ l) = [h, l] := by
  have hnum : (h ++ l).toNat = beOf [h, l] := by
    rw [toNat_append_byte]
    simp [beOf]
  rw [bytes2, hnum]
  exact bytesN_beOf rfl

/-- The bytes of a 64-bit address written as eight bytes (R97). -/
@[simp] theorem bytes8_addr64Of (a : Vector Byte 8) : bytes8 (addr64Of a) = a.toList := by
  have hlist : a.toList = [a[0], a[1], a[2], a[3], a[4], a[5], a[6], a[7]] := by
    refine List.ext_getElem (by simp) fun i hi _ => ?_
    have : i < 8 := by simpa using hi
    interval_cases i <;> simp
  have hnum : (addr64Of a).toNat = beOf a.toList := by
    simp only [addr64Of, toNat_append_byte, hlist, beOf, List.foldl_cons, List.foldl_nil]
    omega
  rw [bytes8, hnum, bytesN_beOf (by simp)]

/-! ## Commands and trailing fields (R97, R98) -/

@[simp] theorem ascii2At_eq (s : List Byte) (i : Nat) :
    ascii2At s i = (byteAt s i, byteAt s (i + 1)) := rfl

theorem trailing_eq_optionalBytes (s : List Byte) (o : Nat) :
    trailing s o = optionalBytes (s.drop o) := by
  simp [trailing, optionalBytes]

@[simp] theorem trailingBytes_optionalBytes (t : List Byte) :
    trailingBytes (optionalBytes t) = t := by
  cases t <;> rfl

theorem optionalBytes_ne_empty (t : List Byte) : optionalBytes t ≠ some [] := by
  cases t <;> simp [optionalBytes]

theorem optionalBytes_trailingBytes {t : Option (List Byte)} (h : t ≠ some []) :
    optionalBytes (trailingBytes t) = t := by
  match t, h with
  | none, _ => rfl
  | some (x :: t), _ => rfl

@[simp] theorem trailingBytes_trailing (s : List Byte) (o : Nat) :
    trailingBytes (trailing s o) = s.drop o := by
  rw [trailing_eq_optionalBytes, trailingBytes_optionalBytes]

/-! ## Reading a field behind what stands before it -/

section
variable (x : Byte) (v : U16) (a : U64) (l : List Byte) (i : Nat)

@[simp] theorem byteAt_zero : byteAt (x :: l) 0 = x := rfl
@[simp] theorem byteAt_succ : byteAt (x :: l) (i + 1) = byteAt l i := rfl
@[simp] theorem u16At_zero : u16At (bytes2 v ++ l) 0 = v := by
  simp [u16At, be]
@[simp] theorem u16At_succ : u16At (x :: l) (i + 1) = u16At l i := rfl
@[simp] theorem addr64At_zero : addr64At (bytes8 a ++ l) 0 = a := by
  simp [addr64At, be]
@[simp] theorem addr64At_succ : addr64At (x :: l) (i + 1) = addr64At l i := rfl
@[simp] theorem bytesAt_succ (n : Nat) : bytesAt (x :: l) (i + 1) n = bytesAt l i n := rfl
@[simp] theorem trailing_zero : trailing l 0 = optionalBytes l := trailing_eq_optionalBytes l 0
@[simp] theorem trailing_succ : trailing (x :: l) (i + 1) = trailing l i := by
  simp [trailing_eq_optionalBytes]

@[simp] theorem byteAt_behind_bytes2 : byteAt (bytes2 v ++ l) (i + 2) = byteAt l i := rfl
@[simp] theorem byteAt_behind_bytes8 : byteAt (bytes8 a ++ l) (i + 8) = byteAt l i := rfl
@[simp] theorem u16At_behind_bytes2 : u16At (bytes2 v ++ l) (i + 2) = u16At l i := rfl
@[simp] theorem u16At_behind_bytes8 : u16At (bytes8 a ++ l) (i + 8) = u16At l i := rfl
@[simp] theorem trailing_behind_bytes2 : trailing (bytes2 v ++ l) (i + 2) = trailing l i := by
  simp [trailing_eq_optionalBytes, bytes2, bytesN]
@[simp] theorem trailing_behind_bytes8 : trailing (bytes8 a ++ l) (i + 8) = trailing l i := by
  simp [trailing_eq_optionalBytes, bytes8, bytesN]
end

/-! ## Reading past a part of any length -/

section
variable {s a l : List Byte} {i : Nat}

theorem byteAt_of_eq_append {x : Byte} (hs : s = a ++ x :: l) (hi : a.length = i) :
    byteAt s i = x := by
  subst hs hi
  simp [byteAt]

theorem bytesAt_of_eq_append {m : List Byte} {n : Nat} (hs : s = a ++ m ++ l) (hi : a.length = i)
    (hn : m.length = n) : bytesAt s i n = m := by
  subst hs hi hn
  simp [bytesAt]

theorem trailing_of_eq_append (hs : s = a ++ l) (hi : a.length = i) :
    trailing s i = optionalBytes l := by
  subst hs hi
  exact trailing_append a l

end

/-! ## Writing back a field that was read

The place `j` where the rest begins is a variable of its own, so that any way of writing it matches. -/

section
variable {s : List Byte} {i j : Nat}

@[simp] theorem byteAt_cons_drop (h : i < s.length) (hj : j = i + 1) :
    byteAt s i :: s.drop j = s.drop i := by
  rw [hj, List.drop_eq_getElem_cons h, byteAt, List.getD_eq_getElem _ _ h]

@[simp] theorem bytesAt_append_drop {n : Nat} (hj : j = i + n) :
    bytesAt s i n ++ s.drop j = s.drop i := by
  rw [hj, bytesAt, ← List.drop_drop, List.take_append_drop]

@[simp] theorem bytesAt_length {n : Nat} (h : i + n ≤ s.length) : (bytesAt s i n).length = n := by
  rw [bytesAt, List.length_take, List.length_drop]
  omega

@[simp] theorem bytes2_u16At_append_drop (h : i + 2 ≤ s.length) (hj : j = i + 2) :
    bytes2 (u16At s i) ++ s.drop j = s.drop i := by
  have hbytes : bytes2 (u16At s i) = bytesAt s i 2 := bytes2_ofNat_beOf (bytesAt_length h)
  rw [hbytes, bytesAt_append_drop hj]

@[simp] theorem bytes8_addr64At_append_drop (h : i + 8 ≤ s.length) (hj : j = i + 8) :
    bytes8 (addr64At s i) ++ s.drop j = s.drop i := by
  have hbytes : bytes8 (addr64At s i) = bytesAt s i 8 := bytes8_ofNat_beOf (bytesAt_length h)
  rw [hbytes, bytesAt_append_drop hj]

end

end Sys2Proof.Machine
end

section
/-! SUPPORT. The layouts of the frame-type table: each record's decoder reads back what ENCODE writes,
and ENCODE writes back what the decoder read. -/

namespace Sys2Proof.Machine

/-! ## What a layout can carry -/

/-- The field of a packet that is sent with no length, last in its layout (R98). -/
def trailingField : Packet → Option (List Byte)
  | .tx64 f => f.rfData
  | .tx16 f => f.rfData
  | .atCommand f => f.parameter
  | .atCommandQueue f => f.parameter
  | .transmitRequest f => f.rfData
  | .explicitAddressing f => f.rfData
  | .remoteAtCommand f => f.parameter
  | .rx64 f => f.rfData
  | .rx16 f => f.rfData
  | .rx64Io f => f.rfData
  | .rx16Io f => f.rfData
  | .atCommandResponse f => f.value
  | .txStatus _ | .modemStatus _ | .transmitStatus _ => none
  | .receivePacket f => f.rfData
  | .explicitRxIndicator f => f.rfData
  | .ioDataSampleRx f => f.rfData
  | .remoteAtCommandResponse f => f.value
  | .deviceRequest f => f.data
  | .sendDataRequest f => f.fileData

/-- The fields of a packet that are sent with a one-byte length (R233, R234). -/
def embeddedFields : Packet → List (List Byte)
  | .deviceRequest f => [f.target]
  | .sendDataRequest f => [f.path, f.contentType]
  | _ => []

/-- What the bytes of a packet can tell: the checks of R240 without that of `rssi`, whose byte can
hold values above its range (R99). -/
structure FitsLayout (p : Packet) : Prop where
  trailing : trailingField p ≠ some []
  embedded : ∀ s ∈ embeddedFields p, s.length ≤ 255

theorem inRange_iff (p : Packet) :
    inRange p = true ↔ FitsLayout p ∧ ∀ r, packetRssi p = some r → r.toNat ≤ 100 := by
  have hfits : FitsLayout p ↔
      trailingField p ≠ some [] ∧ ∀ s ∈ embeddedFields p, s.length ≤ 255 :=
    ⟨fun h => ⟨h.trailing, h.embedded⟩, fun h => ⟨h.1, h.2⟩⟩
  rw [hfits]
  cases p <;> simp [inRange, trailingField, embeddedFields, packetRssi, and_comm, and_assoc]

theorem fitsLayout_of_inRange {p : Packet} (h : inRange p = true) : FitsLayout p :=
  ((inRange_iff p).mp h).1

/-! ## The range checks of ENCODE -/

theorem trailingCheck_eq_none_iff (f : FieldName) (t : Option (List Byte)) :
    trailingCheck f t = none ↔ t ≠ some [] := by
  match t with
  | none => simp [trailingCheck]
  | some [] => simp [trailingCheck]
  | some (_ :: _) => simp [trailingCheck]

theorem rssiCheck_eq_none_iff (r : Byte) : rssiCheck r = none ↔ r.toNat ≤ 100 := by
  simp [rssiCheck]

theorem embeddedCheck_eq_none_iff (f : FieldName) (s : List Byte) :
    embeddedCheck f s = none ↔ s.length ≤ 255 := by
  simp [embeddedCheck]

/-- ENCODE reports no error exactly for a packet in its ranges (R240). -/
theorem rangeCheck_eq_none_iff (p : Packet) : rangeCheck p = none ↔ inRange p = true := by
  cases p <;>
    simp [rangeCheck, inRange, trailingCheck_eq_none_iff, rssiCheck_eq_none_iff,
      embeddedCheck_eq_none_iff, and_assoc]

/-! ## Decoding what was encoded

Record by record (R214 to R234); `k` is the frame-type byte, which the layout rules do not read. -/

theorem decodeTx64_encodeBody (k : Byte) {f : Tx64} (h : f.rfData ≠ some []) :
    decodeTx64 (k :: encodeBody (.tx64 f)) = f := by
  simp [decodeTx64, encodeBody, optionalBytes_trailingBytes h]

theorem decodeTx16_encodeBody (k : Byte) {f : Tx16} (h : f.rfData ≠ some []) :
    decodeTx16 (k :: encodeBody (.tx16 f)) = f := by
  simp [decodeTx16, encodeBody, optionalBytes_trailingBytes h]

theorem decodeAtCommand_encodeBody (k : Byte) {f : AtCommand} (h : f.parameter ≠ some []) :
    decodeAtCommand (k :: encodeBody (.atCommand f)) = f := by
  simp [decodeAtCommand, encodeBody, optionalBytes_trailingBytes h]

theorem decodeTransmitRequest_encodeBody (k : Byte) {f : TransmitRequest} (h : f.rfData ≠ some []) :
    decodeTransmitRequest (k :: encodeBody (.transmitRequest f)) = f := by
  simp [decodeTransmitRequest, encodeBody, optionalBytes_trailingBytes h]

theorem decodeExplicitAddressing_encodeBody (k : Byte) {f : ExplicitAddressing}
    (h : f.rfData ≠ some []) :
    decodeExplicitAddressing (k :: encodeBody (.explicitAddressing f)) = f := by
  simp [decodeExplicitAddressing, encodeBody, optionalBytes_trailingBytes h]

theorem decodeRemoteAtCommand_encodeBody (k : Byte) {f : RemoteAtCommand}
    (h : f.parameter ≠ some []) :
    decodeRemoteAtCommand (k :: encodeBody (.remoteAtCommand f)) = f := by
  simp [decodeRemoteAtCommand, encodeBody, optionalBytes_trailingBytes h]

theorem decodeRx64_encodeBody (k : Byte) {f : Rx64} (h : f.rfData ≠ some []) :
    decodeRx64 (k :: encodeBody (.rx64 f)) = f := by
  simp [decodeRx64, encodeBody, optionalBytes_trailingBytes h]

theorem decodeRx16_encodeBody (k : Byte) {f : Rx16} (h : f.rfData ≠ some []) :
    decodeRx16 (k :: encodeBody (.rx16 f)) = f := by
  simp [decodeRx16, encodeBody, optionalBytes_trailingBytes h]

theorem decodeAtCommandResponse_encodeBody (k : Byte) {f : AtCommandResponse}
    (h : f.value ≠ some []) :
    decodeAtCommandResponse (k :: encodeBody (.atCommandResponse f)) = f := by
  simp [decodeAtCommandResponse, encodeBody, optionalBytes_trailingBytes h]

theorem decodeTxStatus_encodeBody (k : Byte) (f : TxStatus) :
    decodeTxStatus (k :: encodeBody (.txStatus f)) = f := by
  simp [decodeTxStatus, encodeBody]

theorem decodeModemStatus_encodeBody (k : Byte) (f : ModemStatus) :
    decodeModemStatus (k :: encodeBody (.modemStatus f)) = f := by
  simp [decodeModemStatus, encodeBody]

theorem decodeTransmitStatus_encodeBody (k : Byte) (f : TransmitStatus) :
    decodeTransmitStatus (k :: encodeBody (.transmitStatus f)) = f := by
  simp [decodeTransmitStatus, encodeBody]

theorem decodeReceivePacket_encodeBody (k : Byte) {f : ReceivePacket} (h : f.rfData ≠ some []) :
    decodeReceivePacket (k :: encodeBody (.receivePacket f)) = f := by
  simp [decodeReceivePacket, encodeBody, optionalBytes_trailingBytes h]

theorem decodeExplicitRxIndicator_encodeBody (k : Byte) {f : ExplicitRxIndicator}
    (h : f.rfData ≠ some []) :
    decodeExplicitRxIndicator (k :: encodeBody (.explicitRxIndicator f)) = f := by
  simp [decodeExplicitRxIndicator, encodeBody, optionalBytes_trailingBytes h]

theorem decodeRemoteAtCommandResponse_encodeBody (k : Byte) {f : RemoteAtCommandResponse}
    (h : f.value ≠ some []) :
    decodeRemoteAtCommandResponse (k :: encodeBody (.remoteAtCommandResponse f)) = f := by
  simp [decodeRemoteAtCommandResponse, encodeBody, optionalBytes_trailingBytes h]

theorem decodeDeviceRequest_encodeBody (k : Byte) {f : DeviceRequest} (hg : f.target.length ≤ 255)
    (ht : f.data ≠ some []) : decodeDeviceRequest (k :: encodeBody (.deviceRequest f)) = .ok f := by
  generalize hs : k :: encodeBody (.deviceRequest f) = s
  have hcut : s = [k, f.requestId, f.transport, f.flags, BitVec.ofNat 8 f.target.length] ++
      f.target ++ trailingBytes f.data := by
    simp [← hs, encodeBody]
  have hlen : s.length = 5 + f.target.length + (trailingBytes f.data).length := by
    simp [hcut]
    omega
  have hn : (byteAt s 4).toNat = f.target.length := by
    simp [hcut, Nat.mod_eq_of_lt (Nat.lt_succ_of_le hg)]
  have htarget : bytesAt s 5 f.target.length = f.target := bytesAt_of_eq_append hcut rfl rfl
  have hdata : trailing s (5 + f.target.length) = f.data := by
    rw [trailing_of_eq_append hcut (by simp; omega), optionalBytes_trailingBytes ht]
  rw [decodeDeviceRequest, hn, if_neg (by omega), htarget, hdata, hcut]
  rfl

theorem decodeSendDataRequest_encodeBody (k : Byte) {f : SendDataRequest}
    (hp : f.path.length ≤ 255) (hc : f.contentType.length ≤ 255) (ht : f.fileData ≠ some []) :
    decodeSendDataRequest (k :: encodeBody (.sendDataRequest f)) = .ok f := by
  generalize hs : k :: encodeBody (.sendDataRequest f) = s
  generalize ha : [k, f.frameId, BitVec.ofNat 8 f.path.length] = a
  generalize hb : BitVec.ofNat 8 f.contentType.length = b
  have hla : a.length = 3 := by simp [← ha]
  have hpath : s = a ++ f.path ++
      (b :: (f.contentType ++ f.transport :: f.options :: trailingBytes f.fileData)) := by
    simp [← hs, ← ha, ← hb, encodeBody]
  have hct : s = a ++ f.path ++ [b] ++ f.contentType ++
      (f.transport :: f.options :: trailingBytes f.fileData) := by
    simp [hpath]
  have hopt : s = a ++ f.path ++ [b] ++ f.contentType ++ [f.transport] ++
      (f.options :: trailingBytes f.fileData) := by
    simp [hpath]
  have hfile : s = a ++ f.path ++ [b] ++ f.contentType ++ [f.transport, f.options] ++
      trailingBytes f.fileData := by
    simp [hpath]
  have hlen : s.length = 6 + f.path.length + f.contentType.length +
      (trailingBytes f.fileData).length := by
    simp [hfile, hla]
    omega
  have hn : (byteAt s 2).toNat = f.path.length := by
    simp [hpath, ← ha, Nat.mod_eq_of_lt (Nat.lt_succ_of_le hp)]
  have hm : (byteAt s (3 + f.path.length)).toNat = f.contentType.length := by
    rw [byteAt_of_eq_append hpath (by simp [hla])]
    simp [← hb, Nat.mod_eq_of_lt (Nat.lt_succ_of_le hc)]
  have htransport : byteAt s (4 + f.path.length + f.contentType.length) = f.transport :=
    byteAt_of_eq_append hct (by simp [hla]; omega)
  have hoptions : byteAt s (5 + f.path.length + f.contentType.length) = f.options :=
    byteAt_of_eq_append hopt (by simp [hla]; omega)
  have hctype : bytesAt s (4 + f.path.length) f.contentType.length = f.contentType :=
    bytesAt_of_eq_append hct (by simp [hla]; omega) rfl
  have hdata : trailing s (6 + f.path.length + f.contentType.length) = f.fileData := by
    rw [trailing_of_eq_append hfile (by simp [hla]; omega), optionalBytes_trailingBytes ht]
  rw [decodeSendDataRequest, hn, if_neg (by omega), hm, if_neg (by omega), htransport, hoptions,
    hctype, hdata, bytesAt_of_eq_append hpath hla rfl, hpath, ← ha]
  rfl

/-- Every layout rule reads back the fields that ENCODE wrote (R214 to R234). -/
theorem decodeBody_encodeBody (k : Byte) {p : Packet} (h : FitsLayout p) :
    decodeBody (packetType p) (k :: encodeBody p) = .ok p := by
  have ht := h.trailing
  cases p with
  | tx64 f => exact congrArg (Except.ok ∘ Packet.tx64) (decodeTx64_encodeBody k ht)
  | tx16 f => exact congrArg (Except.ok ∘ Packet.tx16) (decodeTx16_encodeBody k ht)
  | atCommand f => exact congrArg (Except.ok ∘ Packet.atCommand) (decodeAtCommand_encodeBody k ht)
  | atCommandQueue f =>
    exact congrArg (Except.ok ∘ Packet.atCommandQueue) (decodeAtCommand_encodeBody k ht)
  | transmitRequest f =>
    exact congrArg (Except.ok ∘ Packet.transmitRequest) (decodeTransmitRequest_encodeBody k ht)
  | explicitAddressing f =>
    exact congrArg (Except.ok ∘ Packet.explicitAddressing)
      (decodeExplicitAddressing_encodeBody k ht)
  | remoteAtCommand f =>
    exact congrArg (Except.ok ∘ Packet.remoteAtCommand) (decodeRemoteAtCommand_encodeBody k ht)
  | rx64 f => exact congrArg (Except.ok ∘ Packet.rx64) (decodeRx64_encodeBody k ht)
  | rx16 f => exact congrArg (Except.ok ∘ Packet.rx16) (decodeRx16_encodeBody k ht)
  | rx64Io f => exact congrArg (Except.ok ∘ Packet.rx64Io) (decodeRx64_encodeBody k ht)
  | rx16Io f => exact congrArg (Except.ok ∘ Packet.rx16Io) (decodeRx16_encodeBody k ht)
  | atCommandResponse f =>
    exact congrArg (Except.ok ∘ Packet.atCommandResponse) (decodeAtCommandResponse_encodeBody k ht)
  | txStatus f => exact congrArg (Except.ok ∘ Packet.txStatus) (decodeTxStatus_encodeBody k f)
  | modemStatus f =>
    exact congrArg (Except.ok ∘ Packet.modemStatus) (decodeModemStatus_encodeBody k f)
  | transmitStatus f =>
    exact congrArg (Except.ok ∘ Packet.transmitStatus) (decodeTransmitStatus_encodeBody k f)
  | receivePacket f =>
    exact congrArg (Except.ok ∘ Packet.receivePacket) (decodeReceivePacket_encodeBody k ht)
  | explicitRxIndicator f =>
    exact congrArg (Except.ok ∘ Packet.explicitRxIndicator)
      (decodeExplicitRxIndicator_encodeBody k ht)
  | ioDataSampleRx f =>
    exact congrArg (Except.ok ∘ Packet.ioDataSampleRx) (decodeReceivePacket_encodeBody k ht)
  | remoteAtCommandResponse f =>
    exact congrArg (Except.ok ∘ Packet.remoteAtCommandResponse)
      (decodeRemoteAtCommandResponse_encodeBody k ht)
  | deviceRequest f =>
    have hg : f.target.length ≤ 255 := h.embedded _ (by simp [embeddedFields])
    exact congrArg (Except.map Packet.deviceRequest) (decodeDeviceRequest_encodeBody k hg ht)
  | sendDataRequest f =>
    have hp : f.path.length ≤ 255 := h.embedded _ (by simp [embeddedFields])
    have hc : f.contentType.length ≤ 255 := h.embedded _ (by simp [embeddedFields])
    exact congrArg (Except.map Packet.sendDataRequest) (decodeSendDataRequest_encodeBody k hp hc ht)

/-! ## Encoding what was decoded

Record by record, for a payload of at least the length of the fixed fields (R96); the three status
rows leave the bytes behind them (R213). -/

theorem encodeBody_decodeTx64 {s : List Byte} (h : 11 ≤ s.length) :
    encodeBody (.tx64 (decodeTx64 s)) = s.drop 1 := by
  simp (disch := omega) [decodeTx64, encodeBody]

theorem encodeBody_decodeTx16 {s : List Byte} (h : 5 ≤ s.length) :
    encodeBody (.tx16 (decodeTx16 s)) = s.drop 1 := by
  simp (disch := omega) [decodeTx16, encodeBody]

theorem encodeBody_decodeAtCommand {s : List Byte} (h : 4 ≤ s.length) :
    encodeBody (.atCommand (decodeAtCommand s)) = s.drop 1 := by
  simp (disch := omega) [decodeAtCommand, encodeBody]

theorem encodeBody_decodeTransmitRequest {s : List Byte} (h : 14 ≤ s.length) :
    encodeBody (.transmitRequest (decodeTransmitRequest s)) = s.drop 1 := by
  simp (disch := omega) [decodeTransmitRequest, encodeBody]

theorem encodeBody_decodeExplicitAddressing {s : List Byte} (h : 20 ≤ s.length) :
    encodeBody (.explicitAddressing (decodeExplicitAddressing s)) = s.drop 1 := by
  simp (disch := omega) [decodeExplicitAddressing, encodeBody]

theorem encodeBody_decodeRemoteAtCommand {s : List Byte} (h : 15 ≤ s.length) :
    encodeBody (.remoteAtCommand (decodeRemoteAtCommand s)) = s.drop 1 := by
  simp (disch := omega) [decodeRemoteAtCommand, encodeBody]

theorem encodeBody_decodeRx64 {s : List Byte} (h : 11 ≤ s.length) :
    encodeBody (.rx64 (decodeRx64 s)) = s.drop 1 := by
  simp (disch := omega) [decodeRx64, encodeBody]

theorem encodeBody_decodeRx16 {s : List Byte} (h : 5 ≤ s.length) :
    encodeBody (.rx16 (decodeRx16 s)) = s.drop 1 := by
  simp (disch := omega) [decodeRx16, encodeBody]

theorem encodeBody_decodeAtCommandResponse {s : List Byte} (h : 5 ≤ s.length) :
    encodeBody (.atCommandResponse (decodeAtCommandResponse s)) = s.drop 1 := by
  simp (disch := omega) [decodeAtCommandResponse, encodeBody]

theorem encodeBody_decodeTxStatus {s : List Byte} (h : 3 ≤ s.length) :
    encodeBody (.txStatus (decodeTxStatus s)) ++ s.drop 3 = s.drop 1 := by
  simp (disch := omega) [decodeTxStatus, encodeBody]

theorem encodeBody_decodeModemStatus {s : List Byte} (h : 2 ≤ s.length) :
    encodeBody (.modemStatus (decodeModemStatus s)) ++ s.drop 2 = s.drop 1 := by
  simp (disch := omega) [decodeModemStatus, encodeBody]

theorem encodeBody_decodeTransmitStatus {s : List Byte} (h : 7 ≤ s.length) :
    encodeBody (.transmitStatus (decodeTransmitStatus s)) ++ s.drop 7 = s.drop 1 := by
  simp (disch := omega) [decodeTransmitStatus, encodeBody]

theorem encodeBody_decodeReceivePacket {s : List Byte} (h : 12 ≤ s.length) :
    encodeBody (.receivePacket (decodeReceivePacket s)) = s.drop 1 := by
  simp (disch := omega) [decodeReceivePacket, encodeBody]

theorem encodeBody_decodeExplicitRxIndicator {s : List Byte} (h : 18 ≤ s.length) :
    encodeBody (.explicitRxIndicator (decodeExplicitRxIndicator s)) = s.drop 1 := by
  simp (disch := omega) [decodeExplicitRxIndicator, encodeBody]

theorem encodeBody_decodeRemoteAtCommandResponse {s : List Byte} (h : 15 ≤ s.length) :
    encodeBody (.remoteAtCommandResponse (decodeRemoteAtCommandResponse s)) = s.drop 1 := by
  simp (disch := omega) [decodeRemoteAtCommandResponse, encodeBody]

/-- Everything the layout rule of a device request can do (R233, R235). -/
theorem decodeDeviceRequest_cases (s : List Byte) :
    (∃ m, s.length < m ∧ decodeDeviceRequest s = .error (.incomplete m s.length)) ∨
    (∃ f, decodeDeviceRequest s = .ok f ∧ encodeBody (.deviceRequest f) = s.drop 1) := by
  by_cases hn : s.length < 5 + (byteAt s 4).toNat
  · exact .inl ⟨_, hn, if_pos hn⟩
  · exact .inr ⟨_, if_neg hn, by simp (disch := omega) [encodeBody]⟩

/-- Everything the layout rule of a send-data request can do (R234, R236). -/
theorem decodeSendDataRequest_cases (s : List Byte) :
    (∃ m, s.length < m ∧ decodeSendDataRequest s = .error (.incomplete m s.length)) ∨
    (∃ f, decodeSendDataRequest s = .ok f ∧ encodeBody (.sendDataRequest f) = s.drop 1) := by
  by_cases hn : s.length < 6 + (byteAt s 2).toNat
  · exact .inl ⟨_, hn, if_pos hn⟩
  · by_cases hm : s.length < 6 + (byteAt s 2).toNat + (byteAt s (3 + (byteAt s 2).toNat)).toNat
    · exact .inl ⟨_, hm, (if_neg hn).trans (if_pos hm)⟩
    · exact .inr ⟨_, (if_neg hn).trans (if_neg hm), by simp (disch := omega) [encodeBody]⟩

/-- Everything a layout rule can do: a packet of its type, or for the two types with embedded lengths
a payload that is too short for them (R209, R235, R236). -/
theorem decodeBody_cases (t : FrameType) (s : List Byte) :
    (∃ p, packetType p = t ∧ decodeBody t s = .ok p) ∨
    ((t = .deviceRequest ∨ t = .sendDataRequest) ∧
      ∃ m, s.length < m ∧ decodeBody t s = .error (.incomplete m s.length)) := by
  cases t with
  | deviceRequest =>
    obtain ⟨m, hm, h⟩ | ⟨f, h, -⟩ := decodeDeviceRequest_cases s
    · exact .inr ⟨.inl rfl, m, hm, congrArg (Except.map Packet.deviceRequest) h⟩
    · exact .inl ⟨.deviceRequest f, rfl, congrArg (Except.map Packet.deviceRequest) h⟩
  | sendDataRequest =>
    obtain ⟨m, hm, h⟩ | ⟨f, h, -⟩ := decodeSendDataRequest_cases s
    · exact .inr ⟨.inr rfl, m, hm, congrArg (Except.map Packet.sendDataRequest) h⟩
    · exact .inl ⟨.sendDataRequest f, rfl, congrArg (Except.map Packet.sendDataRequest) h⟩
  | _ => exact .inl ⟨_, rfl, rfl⟩

theorem packetType_of_decodeBody {t : FrameType} {s : List Byte} {p : Packet}
    (h : decodeBody t s = .ok p) : packetType p = t := by
  obtain ⟨q, hq, h'⟩ | ⟨-, m, -, h'⟩ := decodeBody_cases t s
  · cases h.symm.trans h'
    exact hq
  · cases h.symm.trans h'

/-- The bytes of a payload that its layout rule ignores (R213). -/
def ignoredBytes (s : List Byte) : FrameType → List Byte
  | .txStatus => s.drop 3
  | .modemStatus => s.drop 2
  | .transmitStatus => s.drop 7
  | _ => []

theorem type_of_ignoredBytes_ne_nil {s : List Byte} {t : FrameType} (h : ignoredBytes s t ≠ []) :
    t = .txStatus ∨ t = .modemStatus ∨ t = .transmitStatus := by
  cases t with
  | txStatus => exact .inl rfl
  | modemStatus => exact .inr (.inl rfl)
  | transmitStatus => exact .inr (.inr rfl)
  | _ => exact absurd rfl h

/-- ENCODE writes back the fields that a layout rule read, and only ignored bytes are lost. -/
theorem encodeBody_decodeBody {t : FrameType} {s : List Byte} {p : Packet}
    (hmin : minLength t ≤ s.length) (h : decodeBody t s = .ok p) :
    encodeBody p ++ ignoredBytes s t = s.drop 1 := by
  cases t with
  | tx64 => cases h; exact (List.append_nil _).trans (encodeBody_decodeTx64 hmin)
  | tx16 => cases h; exact (List.append_nil _).trans (encodeBody_decodeTx16 hmin)
  | atCommand => cases h; exact (List.append_nil _).trans (encodeBody_decodeAtCommand hmin)
  | atCommandQueue => cases h; exact (List.append_nil _).trans (encodeBody_decodeAtCommand hmin)
  | transmitRequest =>
    cases h
    exact (List.append_nil _).trans (encodeBody_decodeTransmitRequest hmin)
  | explicitAddressing =>
    cases h
    exact (List.append_nil _).trans (encodeBody_decodeExplicitAddressing hmin)
  | remoteAtCommand =>
    cases h
    exact (List.append_nil _).trans (encodeBody_decodeRemoteAtCommand hmin)
  | rx64 => cases h; exact (List.append_nil _).trans (encodeBody_decodeRx64 hmin)
  | rx16 => cases h; exact (List.append_nil _).trans (encodeBody_decodeRx16 hmin)
  | rx64Io => cases h; exact (List.append_nil _).trans (encodeBody_decodeRx64 hmin)
  | rx16Io => cases h; exact (List.append_nil _).trans (encodeBody_decodeRx16 hmin)
  | atCommandResponse =>
    cases h
    exact (List.append_nil _).trans (encodeBody_decodeAtCommandResponse hmin)
  | txStatus => cases h; exact encodeBody_decodeTxStatus hmin
  | modemStatus => cases h; exact encodeBody_decodeModemStatus hmin
  | transmitStatus => cases h; exact encodeBody_decodeTransmitStatus hmin
  | receivePacket => cases h; exact (List.append_nil _).trans (encodeBody_decodeReceivePacket hmin)
  | explicitRxIndicator =>
    cases h
    exact (List.append_nil _).trans (encodeBody_decodeExplicitRxIndicator hmin)
  | ioDataSampleRx => cases h; exact (List.append_nil _).trans (encodeBody_decodeReceivePacket hmin)
  | remoteAtCommandResponse =>
    cases h
    exact (List.append_nil _).trans (encodeBody_decodeRemoteAtCommandResponse hmin)
  | deviceRequest =>
    obtain ⟨m, -, hd⟩ | ⟨f, hd, hf⟩ := decodeDeviceRequest_cases s
    · rw [decodeBody, hd] at h
      cases h
    · rw [decodeBody, hd] at h
      cases h
      exact (List.append_nil _).trans hf
  | sendDataRequest =>
    obtain ⟨m, -, hd⟩ | ⟨f, hd, hf⟩ := decodeSendDataRequest_cases s
    · rw [decodeBody, hd] at h
      cases h
    · rw [decodeBody, hd] at h
      cases h
      exact (List.append_nil _).trans hf

end Sys2Proof.Machine
end

section
/-! SUPPORT. The dispatcher: the frame-type table, the tests of DECODE_FRAME and DECODE_AS, and what
the operations on `CODEC` answer. -/

namespace Sys2Proof.Machine

/-! ## The frame-type table (R100) -/

/-- The rows with a fixed code come first, so no parameter can hide one of them. -/
theorem ftLookup_fixed (c : Cfg) {t : FrameType} (hd : t ≠ .deviceRequest)
    (hs : t ≠ .sendDataRequest) : ftLookup c (frameCode c t) = some t := by
  cases t with
  | deviceRequest => exact absurd rfl hd
  | sendDataRequest => exact absurd rfl hs
  | _ => rfl

/-- A byte outside the fixed codes is looked up among the two parameters. -/
theorem ftLookup_not_fixed (c : Cfg) {b : Byte} (h : b ∉ fixedCodes) :
    ftLookup c b =
      if c.ftDeviceRequest = b then some .deviceRequest
      else if c.ftSendDataRequest = b then some .sendDataRequest else none := by
  have hrows : allFrameTypes = allFrameTypes.take 19 ++ [.deviceRequest, .sendDataRequest] := rfl
  have hcodes : (allFrameTypes.take 19).map (frameCode c) = fixedCodes := rfl
  have hnone : (allFrameTypes.take 19).find? (fun t => frameCode c t == b) = none := by
    refine List.find?_eq_none.mpr fun t ht hb => h ?_
    rw [← hcodes, ← eq_of_beq hb]
    exact List.mem_map_of_mem ht
  rw [ftLookup, hrows, List.find?_append, hnone]
  by_cases hd : c.ftDeviceRequest = b
  · simp [frameCode, hd]
  · by_cases hs : c.ftSendDataRequest = b <;> simp [frameCode, hd, hs]

/-- In a valid configuration every row is found by its code (R7, R100). -/
theorem ftLookup_frameCode {c : Cfg} (h : c.valid = true) (t : FrameType) :
    ftLookup c (frameCode c t) = some t := by
  simp only [Cfg.valid, Bool.and_eq_true, decide_eq_true_eq, Bool.not_eq_true',
    List.contains_eq_mem, decide_eq_false_iff_not] at h
  obtain ⟨⟨⟨-, hne⟩, hd⟩, hs⟩ := h
  cases t with
  | deviceRequest => exact (ftLookup_not_fixed c hd).trans (if_pos rfl)
  | sendDataRequest =>
    exact (ftLookup_not_fixed c hs).trans ((if_neg hne).trans (if_pos rfl))
  | _ => exact ftLookup_fixed c (by simp) (by simp)

/-! ## The tests of DECODE_AS and DECODE_FRAME (R205, R210) -/

section
variable (c : Cfg) {t : FrameType} {b : Byte} {w : List Byte}

theorem decodeAs_nil (t : FrameType) : decodeAs c t [] = .error .nullPayload := rfl

theorem decodeAs_short (h : w.length + 1 < minLength t) :
    decodeAs c t (b :: w) = .error (.incomplete (minLength t) (w.length + 1)) :=
  if_pos h

theorem decodeAs_wrongType (hmin : minLength t ≤ w.length + 1) (hb : b ≠ frameCode c t) :
    decodeAs c t (b :: w) = .error (.wrongFrameType (frameCode c t) b) :=
  (if_neg (Nat.not_lt.mpr hmin)).trans (if_pos hb)

/-- Past its tests DECODE_AS is the layout rule of its type. -/
theorem decodeAs_passed (hmin : minLength t ≤ w.length + 1) (hb : b = frameCode c t) :
    decodeAs c t (b :: w) = decodeBody t (b :: w) :=
  (if_neg (Nat.not_lt.mpr hmin)).trans (if_neg (not_not.mpr hb))

theorem decodeFrame_unknown (h : ftLookup c b = none) :
    decodeFrame c (b :: w) = .error (.unknownFrameType b) := by
  rw [decodeFrame, h]

theorem decodeFrame_known (h : ftLookup c b = some t) :
    decodeFrame c (b :: w) = decodeAs c t (b :: w) := by
  rw [decodeFrame, h]

end

/-- A payload that DECODE_AS takes has passed all three tests. -/
theorem decodeAs_ok {c : Cfg} {t : FrameType} {s : List Byte} {p : Packet}
    (h : decodeAs c t s = .ok p) :
    ∃ w, s = frameCode c t :: w ∧ minLength t ≤ s.length ∧ decodeBody t s = .ok p := by
  cases s with
  | nil => cases h
  | cons b w =>
    by_cases hmin : minLength t ≤ w.length + 1
    · by_cases hb : b = frameCode c t
      · exact ⟨w, congrArg (· :: w) hb, hmin, (decodeAs_passed c hmin hb).symm.trans h⟩
      · cases (decodeAs_wrongType c hmin hb).symm.trans h
    · cases (decodeAs_short c (Nat.not_le.mp hmin)).symm.trans h

/-- A payload that DECODE_FRAME takes is one that DECODE_AS takes for some row. -/
theorem decodeFrame_ok {c : Cfg} {s : List Byte} {p : Packet} (h : decodeFrame c s = .ok p) :
    ∃ t, decodeAs c t s = .ok p := by
  cases s with
  | nil => cases h
  | cons b w =>
    cases hb : ftLookup c b with
    | none => cases (decodeFrame_unknown c hb).symm.trans h
    | some t => exact ⟨t, (decodeFrame_known c hb).symm.trans h⟩

/-! ## Payloads -/

/-- ENCODE writes at least the fixed fields of the row (R96). -/
theorem minLength_le_encodeBody_length (p : Packet) :
    minLength (packetType p) ≤ (encodeBody p).length + 1 := by
  cases p <;> simp [packetType, minLength, encodeBody] <;> omega

/-- A packet whose row is found by its code decodes from its payload (R237). -/
theorem decodeFrame_payloadOf {c : Cfg} {p : Packet}
    (hrow : ftLookup c (frameCode c (packetType p)) = some (packetType p)) (hfits : FitsLayout p) :
    decodeFrame c (payloadOf c p) = .ok p := by
  rw [payloadOf, packetCode, decodeFrame_known c hrow,
    decodeAs_passed c (minLength_le_encodeBody_length p) rfl, decodeBody_encodeBody _ hfits]

/-- A payload that decodes is that of its packet, up to ignored bytes (R213, R237). -/
theorem payloadOf_of_decodeFrame {c : Cfg} {s : List Byte} {p : Packet}
    (h : decodeFrame c s = .ok p) : s = payloadOf c p ++ ignoredBytes s (packetType p) := by
  obtain ⟨t, ht⟩ := decodeFrame_ok h
  obtain ⟨w, hs, hmin, hbody⟩ := decodeAs_ok ht
  have hw : encodeBody p ++ ignoredBytes s t = w := by
    rw [encodeBody_decodeBody hmin hbody, hs]
    rfl
  rw [payloadOf, packetCode, packetType_of_decodeBody hbody, List.cons_append, hw]
  exact hs

end Sys2Proof.Machine
end

section
/-! SUPPORT. IOS_DECODE against its pseudocode (R263): the block is first split into its fields, where
the pseudocode keeps a running offset. -/

namespace Sys2Proof.Machine

/-! ## The analog lines (R265) -/

/-- The offset behind the analog loop: two bytes per set bit. -/
theorem analogLoop_offset (b : List Byte) (am : Byte) (is : List Nat) (o : Nat) :
    (analogLoop b am is o).2 = o + 2 * (is.filter fun i => am.getLsbD i).length := by
  induction is generalizing o with
  | nil => rfl
  | cons i is ih =>
    by_cases h : am.getLsbD i = true
    · simp [analogLoop, h, ih]
      omega
    · simp [analogLoop, h, ih]

/-- The analog loop gives no value to a line it does not visit. -/
theorem analogLoop_not_visited (b : List Byte) (am : Byte) {is : List Nat} {i : Nat} (hi : i ∉ is)
    (o : Nat) : (analogLoop b am is o).1.find? (fun x => x.1 == i) = none := by
  induction is generalizing o with
  | nil => rfl
  | cons j is ih =>
    obtain ⟨hj, his⟩ := not_or.mp (mt List.mem_cons.mpr hi)
    by_cases h : am.getLsbD j = true
    · simp [analogLoop, h, ih his, Ne.symm hj]
    · simp [analogLoop, h, ih his]

/-- A line that the analog loop visits once reads its value behind those of the set bits before it. -/
theorem analogLoop_visited (b : List Byte) (am : Byte) {i : Nat} {before after : List Nat}
    (hbefore : i ∉ before) (hafter : i ∉ after) (o : Nat) :
    ((analogLoop b am (before ++ i :: after) o).1.find? (fun x => x.1 == i)).map (·.2) =
      if am.getLsbD i then
        some (u16At b (o + 2 * (before.filter fun j => am.getLsbD j).length))
      else none := by
  induction before generalizing o with
  | nil =>
    by_cases h : am.getLsbD i = true
    · simp [analogLoop, h]
    · simp [analogLoop, h, analogLoop_not_visited b am hafter]
  | cons j before ih =>
    obtain ⟨hj, hrest⟩ := not_or.mp (mt List.mem_cons.mpr hbefore)
    by_cases h : am.getLsbD j = true
    · simp [analogLoop, h, ih hrest, Ne.symm hj, Nat.mul_add, Nat.add_assoc, Nat.add_comm 2]
    · simp [analogLoop, h, ih hrest]

/-- The six lines, cut at one of them. -/
theorem analogLines_cut (i : Fin 6) :
    [0, 1, 2, 3, 4, 5] = List.range i ++ i.val :: List.range' (i + 1) (5 - i) := by
  revert i
  decide

theorem analogRank_lt_analogCount {am : Byte} {i : Fin 6} (h : am.getLsbD i = true) :
    analogRank am i < analogCount am := by
  have hcut : List.range 6 = List.range i ++ i.val :: List.range' (i + 1) (5 - i) :=
    analogLines_cut i
  rw [analogCount, analogRank, analogRank, hcut, List.filter_append, List.filter_cons_of_pos h,
    List.length_append, List.length_cons]
  omega

/-- The value that the loop of R263 finds for a line is the one at the line's rank (R265). -/
theorem analogLoop_line (b : List Byte) (am : Byte) (a : Nat) (i : Fin 6) :
    ((analogLoop b am [0, 1, 2, 3, 4, 5] a).1.find? fun x => x.1 == i.val).map (·.2) =
      if am.getLsbD i then
        ((List.range (analogCount am)).map fun k => u16At b (a + 2 * k))[analogRank am i]?
      else none := by
  have hafter : i.val ∉ List.range' (i + 1) (5 - i) := by
    rw [List.mem_range'_1]
    omega
  rw [analogLines_cut i, analogLoop_visited b am (by simp) hafter]
  by_cases h : am.getLsbD i = true
  · rw [if_pos h, if_pos h, List.getElem?_map, List.getElem?_range (analogRank_lt_analogCount h)]
    rfl
  · rw [if_neg h, if_neg h]

/-! ## The block (R122, R263) -/

theorem digitalSize_eq (dm : U16) : digitalSize dm = 2 * if dm = 0 then 0 else 1 := by
  by_cases h : dm = 0 <;> simp [digitalSize, h]

/-- The digital value is present whenever a line reads it (R122, R264). -/
theorem digital_line (dm dv : U16) (i : Nat) :
    (if dm.getLsbD i then
        (if dm ≠ 0 then some dv else none).map fun v => if v.getLsbD i then Level.high else Level.low
      else none) =
      if dm.getLsbD i then some (if dv.getLsbD i then Level.high else Level.low) else none := by
  by_cases h : dm = 0
  · simp [h]
  · rw [if_pos h]
    rfl

/-- The bytes that the masks call for, as the pseudocode counts them (R122, R269). -/
theorem blockNeed_eq (present : Bool) (dm : U16) (am : Byte) :
    blockNeed present dm am = (if present then 1 else 0) + 3 + 2 * (if dm = 0 then 0 else 1) +
      2 * ((List.range 6).filter fun i => am.getLsbD i).length +
      2 * (if am.getLsbD 7 then 1 else 0) := by
  rw [blockNeed, nsampSize, digitalSize_eq, powerPresent, analogCount, analogRank]
  cases am.getLsbD 7 <;> rfl

/-- IOS_DECODE is its pseudocode (R263). -/
theorem iosDecode_eq_iosReference (c : Cfg) (t : IoType) (b : List Byte) :
    iosDecode c t b = iosReference (nsampPresent c t) b := by
  rw [iosDecode, parseBlock, iosReference, nsampSize]
  generalize nsampPresent c t = present
  dsimp only
  generalize hs : (if present then 1 else 0) = s
  by_cases h5 : b.length < 5
  · rw [if_pos h5, if_pos h5]
    rfl
  rw [if_neg h5, if_neg h5, ← hs, ← blockNeed_eq, hs]
  by_cases hneed : b.length < blockNeed present (u16At b s) (byteAt b (s + 2))
  · rw [if_pos hneed, if_pos hneed]
    rfl
  rw [if_neg hneed, if_neg hneed, Option.map_some, blockSample]
  simp only [digital_line, analogLoop_line, analogLoop_offset, ← digitalSize_eq]
  rfl

/-- The sample of a trailing region that holds the bytes `t` (R206, R260). -/
theorem optionalBytes_bind_iosDecode (c : Cfg) (k : IoType) (t : List Byte) :
    (optionalBytes t).bind (iosDecode c k) =
      if t = [] then none else iosReference (nsampPresent c k) t := by
  cases t with
  | nil => rfl
  | cons b t => exact iosDecode_eq_iosReference c k (b :: t)

end Sys2Proof.Machine
end

section
/-! SUPPORT. What a codec client is answered, and the obligations of the dispatcher. -/

namespace Sys2Proof.Machine

/-! ## The operations on `CODEC` -/

/-- The result of a decode for a codec client: the packet with its computed fields (R206), or the
error (R315). -/
def decodeResult (c : Cfg) : Except ErrorEvent Packet → CodecResult
  | .ok p => .packet (decodedOf c p)
  | .error e => .failed e

theorem exec_decodeFrame (p : List Byte) (s : State) : exec (.decodeFrame p) s =
    .next (s.pushCodec (decodeResult s.cfg (decodeFrame s.cfg p))) := by
  change execDecodeFrame p s = _
  rw [execDecodeFrame]
  cases decodeFrame s.cfg p <;> rfl

theorem exec_decodeAs (t : FrameType) (p : List Byte) (s : State) : exec (.decodeAs t p) s =
    .next (s.pushCodec (decodeResult s.cfg (decodeAs s.cfg t p))) := by
  change execDecodeAs t p s = _
  rw [execDecodeAs]
  cases decodeAs s.cfg t p <;> rfl

/-- ENCODE of a packet in its ranges answers its body (R238, R240). -/
theorem exec_encode_inRange {p : Packet} (h : inRange p = true) (s : State) :
    exec (.encode p) s = .next (s.pushCodec (.bytes (encodeBody p))) := by
  change execEncode p s = _
  rw [execEncode, (rangeCheck_eq_none_iff p).mpr h]

/-! ## Layouts without embedded lengths

Such a row has a fixed code, so its layout holds in every configuration. -/

section
variable {p : Packet} {body : List Byte} (he : embeddedFields p = [])
  (ht : trailingField p ≠ some []) (hbody : encodeBody p = body)
include he

theorem ftLookup_of_no_embeddedFields (c : Cfg) :
    ftLookup c (frameCode c (packetType p)) = some (packetType p) := by
  cases p with
  | deviceRequest f => cases he
  | sendDataRequest f => cases he
  | _ => exact ftLookup_fixed c nofun nofun

include ht

theorem fitsLayout_of_no_embeddedFields : FitsLayout p :=
  ⟨ht, fun s hs => by rw [he] at hs; cases hs⟩

include hbody

theorem decodesTo_of_encodeBody (c : Cfg) {bc : Bool} {io : Option IoSample}
    (hbc : isBroadcast c p = bc) (hio : packetIoSample c p = io) :
    DecodesTo c (frameCode c (packetType p) :: body) p bc io := by
  rintro s rfl
  have hdec : decodeFrame s.cfg (frameCode s.cfg (packetType p) :: body) = .ok p := by
    rw [← hbody]
    exact decodeFrame_payloadOf (ftLookup_of_no_embeddedFields he s.cfg)
      (fitsLayout_of_no_embeddedFields he ht)
  rw [exec_decodeFrame, hdec, ← hbc, ← hio]
  rfl

theorem encodesTo_of_encodeBody (c : Cfg) (hr : ∀ r, packetRssi p = some r → r.toNat ≤ 100) :
    EncodesTo c p body := by
  intro s _
  rw [exec_encode_inRange ((inRange_iff p).mpr ⟨fitsLayout_of_no_embeddedFields he ht, hr⟩), hbody]
  rfl

/-- Both directions of a layout, for a packet without `rssi`. -/
theorem layout_of_encodeBody (c : Cfg) {bc : Bool} {io : Option IoSample}
    (hrssi : packetRssi p = none) (hbc : isBroadcast c p = bc) (hio : packetIoSample c p = io) :
    DecodesTo c (frameCode c (packetType p) :: body) p bc io ∧ EncodesTo c p body :=
  ⟨decodesTo_of_encodeBody he ht hbody c hbc hio,
    encodesTo_of_encodeBody he ht hbody c (by simp [hrssi])⟩

end

/-! ## The broadcast flag (R212) -/

theorem optionsBroadcast_eq (o : Byte) : optionsBroadcast o = decide (o &&& 0x06 ≠ 0) :=
  (decide_not).symm

theorem addressBroadcast_eq (c : Cfg) (a : U64) (b : U16) :
    (a == addr64Broadcast || b == c.addr16Broadcast) =
      decide (a = 0x000000000000FFFF ∨ b = c.addr16Broadcast) :=
  (Bool.decide_or _ _).symm

/-! ## The obligations of the dispatcher -/

/-- Settles O26, by the two round trips of the layout rules. -/
theorem packetRoundTrip : Obligations.PacketRoundTrip := by
  constructor
  · intro c p hc hp
    exact decodeFrame_payloadOf (ftLookup_frameCode hc _) (fitsLayout_of_inRange hp)
  · intro c b p h
    exact ⟨_, payloadOf_of_decodeFrame h, type_of_ignoredBytes_ne_nil⟩

/-- Settles O27: each test by its own equation, and past them the two things a layout rule can do. -/
theorem decodeTestsInOrder : Obligations.DecodeTestsInOrder := by
  intro s hc
  refine ⟨rfl, ?_, ?_, fun t => rfl, ?_, ?_, ?_⟩
  · intro b w hb
    rw [exec_decodeFrame, decodeFrame_unknown _ hb]
    rfl
  · intro b w t hb
    rw [exec_decodeFrame, exec_decodeAs, decodeFrame_known _ hb]
  · intro t b w hmin
    rw [exec_decodeAs, decodeAs_short _ hmin]
    rfl
  · intro t b w hmin hb
    rw [exec_decodeAs, decodeAs_wrongType _ hmin hb]
    rfl
  · intro t b w hmin hb
    have hrow : ftLookup s.cfg b = some t := hb ▸ ftLookup_frameCode hc t
    rw [exec_decodeAs, decodeFrame_known _ hrow, decodeAs_passed _ hmin hb]
    obtain ⟨p, hp, hbody⟩ | ⟨ht, m, hm, hbody⟩ := decodeBody_cases t (b :: w)
    · exact .inl ⟨p, hp, hbody, by rw [hbody]; rfl⟩
    · exact .inr ⟨ht, m, hm, by rw [hbody]; rfl⟩

/-- Settles O34, by the round trip of the packet. -/
theorem encodeOperationResult : Obligations.EncodeOperationResult := by
  intro s p hc hp
  refine ⟨encodeBody p, ?_, rfl, ?_⟩
  · rw [exec_encode_inRange hp]
    rfl
  · have hdec : decodeFrame s.cfg (frameCode s.cfg (packetType p) :: encodeBody p) = .ok p :=
      decodeFrame_payloadOf (ftLookup_frameCode hc _) (fitsLayout_of_inRange hp)
    rw [exec_decodeFrame, hdec]
    rfl

/-- Settles O28, each row by the bytes that ENCODE writes for it. -/
theorem shortRequestLayouts : Obligations.ShortRequestLayouts := by
  intro c id o x y a h l t
  have ht := optionalBytes_ne_empty t
  refine ⟨?_, ?_, ?_, ?_⟩
  · intro p
    exact layout_of_encodeBody (p := p) rfl ht (by simp [p, encodeBody]) c rfl rfl rfl
  · intro p
    exact layout_of_encodeBody (p := p) rfl ht (by simp [p, encodeBody]) c rfl rfl rfl
  · intro p
    exact layout_of_encodeBody (p := p) rfl ht (by simp [p, encodeBody]) c rfl rfl rfl
  · intro p
    exact layout_of_encodeBody (p := p) rfl ht (by simp [p, encodeBody]) c rfl rfl rfl

/-- Settles O29, each row by the bytes that ENCODE writes for it. -/
theorem addressedRequestLayouts : Obligations.AddressedRequestLayouts := by
  intro c id o x y a h l r se de ch cl ph pl t bc
  have ht := optionalBytes_ne_empty t
  have hbc := addressBroadcast_eq c (addr64Of a) (h ++ l)
  refine ⟨?_, ?_, ?_⟩
  · intro p
    exact layout_of_encodeBody (p := p) rfl ht (by simp [p, encodeBody]) c rfl hbc rfl
  · intro p
    exact layout_of_encodeBody (p := p) rfl ht (by simp [p, encodeBody]) c rfl hbc rfl
  · intro p
    exact layout_of_encodeBody (p := p) rfl ht (by simp [p, encodeBody]) c rfl hbc rfl

/-- Settles O30: the same bytes for the plain row and its IO row, whose sample is the pseudocode's. -/
theorem legacyReceiveLayouts : Obligations.LegacyReceiveLayouts := by
  intro c o r a h l t bc
  have ht := optionalBytes_ne_empty t
  have hbc := optionsBroadcast_eq o
  have hrssi (hr : r.toNat ≤ 100) : ∀ b, some r = some b → b.toNat ≤ 100 := by
    rintro _ ⟨⟩
    exact hr
  constructor
  · intro f
    have hbody : encodeBody (.rx64 f) = a.toList ++ [r, o] ++ t := by simp [f, encodeBody]
    have hio := optionalBytes_bind_iosDecode c .rx64Io t
    exact ⟨decodesTo_of_encodeBody (p := .rx64 f) rfl ht hbody c hbc rfl,
      decodesTo_of_encodeBody (p := .rx64Io f) rfl ht hbody c hbc hio,
      fun hr => ⟨encodesTo_of_encodeBody (p := .rx64 f) rfl ht hbody c (hrssi hr),
        encodesTo_of_encodeBody (p := .rx64Io f) rfl ht hbody c (hrssi hr)⟩⟩
  · intro f
    have hbody : encodeBody (.rx16 f) = [h, l, r, o] ++ t := by simp [f, encodeBody]
    have hio := optionalBytes_bind_iosDecode c .rx16Io t
    exact ⟨decodesTo_of_encodeBody (p := .rx16 f) rfl ht hbody c hbc rfl,
      decodesTo_of_encodeBody (p := .rx16Io f) rfl ht hbody c hbc hio,
      fun hr => ⟨encodesTo_of_encodeBody (p := .rx16 f) rfl ht hbody c (hrssi hr),
        encodesTo_of_encodeBody (p := .rx16Io f) rfl ht hbody c (hrssi hr)⟩⟩

/-- Settles O32, each row by the bytes that ENCODE writes for it; the IO row's sample is the
pseudocode's. -/
theorem addressedReceiveLayouts : Obligations.AddressedReceiveLayouts := by
  intro c id o x y st a h l se de ch cl ph pl t bc
  have ht := optionalBytes_ne_empty t
  have hbc := optionsBroadcast_eq o
  refine ⟨?_, ?_, ?_⟩
  · intro f
    have hbody : encodeBody (.receivePacket f) = a.toList ++ [h, l, o] ++ t := by
      simp [f, encodeBody]
    have hio := optionalBytes_bind_iosDecode c .ioDataSampleRx t
    obtain ⟨hdecode, hencode⟩ :=
      layout_of_encodeBody (p := .receivePacket f) rfl ht hbody c rfl hbc rfl
    exact ⟨hdecode, hencode,
      layout_of_encodeBody (p := .ioDataSampleRx f) rfl ht hbody c rfl hbc hio⟩
  · intro p
    exact layout_of_encodeBody (p := p) rfl ht (by simp [p, encodeBody]) c rfl hbc rfl
  · intro p
    exact layout_of_encodeBody (p := p) rfl ht (by simp [p, encodeBody]) c rfl rfl rfl

end Sys2Proof.Machine
end

section
/-! SUPPORT. The IO sample codec: the maps of the pseudocode's sample follow its masks (R262), and the
obligation of the family. -/

namespace Sys2Proof.Machine

/-! ## The maps of a sample (R262) -/

theorem sampleOk_iff (k : IoSample) : sampleOk k = true ↔
    (∀ i : Fin 16, k.digital[i].isSome = k.digitalMask.getLsbD i) ∧
    (∀ i : Fin 6, k.analog[i].isSome = k.analogMask.getLsbD i) ∧
    k.power.isSome = powerPresent k.analogMask := by
  simp [sampleOk, and_assoc]

/-- The analog loop gives a value to exactly the lines whose mask bit is set (R265). -/
theorem analogLoop_line_isSome (b : List Byte) (am : Byte) (a : Nat) (i : Fin 6) :
    (((analogLoop b am [0, 1, 2, 3, 4, 5] a).1.find? fun x => x.1 == i.val).map (·.2)).isSome =
      am.getLsbD i := by
  rw [analogLoop_line]
  by_cases h : am.getLsbD i = true
  · simp [h, analogRank_lt_analogCount h]
  · simp [h]

/-- A sample that the pseudocode gives has its maps defined exactly where its masks say. -/
theorem sampleOk_of_iosReference {present : Bool} {b : List Byte} {k : IoSample}
    (h : iosReference present b = some k) : sampleOk k = true := by
  simp only [iosReference, Option.ite_none_left_eq_some, Option.some.injEq] at h
  obtain ⟨_, _, rfl⟩ := h
  rw [sampleOk_iff]
  refine ⟨fun i => ?digital, fun i => ?analog, ?power⟩
  case digital =>
    rw [Fin.getElem_fin, Vector.getElem_ofFn]
    exact Bool.eq_iff_iff.mpr Option.isSome_ite
  case analog =>
    rw [Fin.getElem_fin, Vector.getElem_ofFn]
    exact analogLoop_line_isSome b _ _ i
  case power => exact Bool.eq_iff_iff.mpr Option.isSome_ite

/-! ## The obligation of the IO sample codec -/

theorem exec_iosDecode (t : IoType) (b : Option (List Byte)) (s : State) :
    exec (.iosDecode t b) s = .next (s.pushCodec (.sample (b.bind (iosDecode s.cfg t)))) := rfl

/-- Settles O36: the split decoder agrees with the pseudocode on every block, and the pseudocode's
sample has its maps where its masks say. -/
theorem iosDecodeIsItsPseudocode : Obligations.IosDecodeIsItsPseudocode := by
  intro t b s
  constructor
  · have hdecode : iosDecode s.cfg t = iosReference (nsampPresent s.cfg t) :=
      funext (iosDecode_eq_iosReference s.cfg t)
    rw [exec_iosDecode, hdecode]
    rfl
  · intro bs k _ hk
    exact sampleOk_of_iosReference hk

end Sys2Proof.Machine
end

section
/-! SUPPORT. Delivery, SEND and SEND_AND_WAIT: what DELIVER does by whether a wait is resolved, the only
error of the range checks, and each test of R331 by its own equation; the obligations of the family. -/

namespace Sys2Proof.Machine

/-! ## DELIVER (R286) -/

section
variable {s : State} {f : Byte} {p : Packet}

/-- The condition of R286 is the packet's own frame ID and the test that DELIVER makes on it. -/
theorem resolves_iff : Resolves s f p ↔ packetFrameId p = some f ∧ resolves s f p = true := by
  simp [Resolves, resolves, and_assoc, and_left_comm]

/-- LQ_PUSH of a packet with its computed fields: the queue makes room, then takes it (R302, R304). -/
theorem setLq_lqPush_decodedOf (p : Packet) (s : State) :
    s.setLq (lqPush s.cfg.lqDepth s.lq (decodedOf s.cfg p)) = queued p s := by
  by_cases hfull : s.lq.length = s.cfg.lqDepth
  · rw [lqPush, if_pos hfull, queued, if_pos hfull]
    rfl
  · rw [lqPush, if_neg hfull, queued, if_neg hfull]
    rfl

theorem exec_deliver_resolves (h : Resolves s f p) :
    exec (.deliver p) s = .next (resolved f p s) := by
  obtain ⟨hf, hr⟩ := resolves_iff.mp h
  obtain ⟨g, hg, _, hd⟩ | ⟨hnone, _⟩ := deliver_cases (decodedOf s.cfg p) s
  · obtain rfl : f = g := Option.some.inj (hf.symm.trans hg)
    rw [exec_deliver, hd]
    rfl
  · exact absurd hr (Bool.eq_false_iff.mp (hnone f hf))

theorem exec_deliver_not_resolves (h : ∀ f, ¬ Resolves s f p) :
    exec (.deliver p) s = .next (queued p s) := by
  obtain ⟨g, hg, hr, _⟩ | ⟨_, hd⟩ := deliver_cases (decodedOf s.cfg p) s
  · exact absurd (resolves_iff.mpr ⟨hg, hr⟩) (h g)
  · rw [exec_deliver, hd, setLq_lqPush_decodedOf]

/-- A resolved wait is over: its frame ID is no longer pending. -/
theorem resolved_not_pending (f : Byte) (p : Packet) (s : State) :
    ((resolved f p s).corrAt f).pending = false := by
  have hclear : (resolved f p s).corrAt f = (s.clearPending f).corrAt f := rfl
  rw [hclear, clearPending_corrAt, if_pos rfl]

/-- A packet whose frame ID is not pending resolves no wait. -/
theorem not_resolves_of_not_pending (hf : packetFrameId p = some f)
    (h : (s.corrAt f).pending = false) (g : Byte) : ¬ Resolves s g p := by
  rintro ⟨_, hg, hpending, _⟩
  obtain rfl : f = g := Option.some.inj (hf.symm.trans hg)
  rw [h] at hpending
  cases hpending

end

/-! ## The error of the range checks (R240) -/

/-- A check that can report nothing but an `OutOfRange`. -/
def ReportsOutOfRange (check : Option ErrorEvent) : Prop :=
  ∀ e, check = some e → ∃ field value lo hi, e = .outOfRange field value lo hi

theorem reportsOutOfRange_none : ReportsOutOfRange none := nofun

theorem ReportsOutOfRange.or {a b : Option ErrorEvent} (ha : ReportsOutOfRange a)
    (hb : ReportsOutOfRange b) : ReportsOutOfRange (a.or b) := by
  intro e h
  obtain h | ⟨_, h⟩ := Option.or_eq_some_iff.mp h
  · exact ha e h
  · exact hb e h

theorem reportsOutOfRange_trailingCheck (f : FieldName) (t : Option (List Byte)) :
    ReportsOutOfRange (trailingCheck f t) := by
  intro e h
  match t with
  | some [] => exact ⟨_, _, _, _, (Option.some.inj h).symm⟩
  | some (_ :: _) => cases h
  | none => cases h

theorem reportsOutOfRange_rssiCheck (r : Byte) : ReportsOutOfRange (rssiCheck r) := by
  intro e h
  obtain ⟨_, h⟩ := Option.ite_none_right_eq_some.mp h
  exact ⟨_, _, _, _, (Option.some.inj h).symm⟩

theorem reportsOutOfRange_embeddedCheck (f : FieldName) (l : List Byte) :
    ReportsOutOfRange (embeddedCheck f l) := by
  intro e h
  obtain ⟨_, h⟩ := Option.ite_none_right_eq_some.mp h
  exact ⟨_, _, _, _, (Option.some.inj h).symm⟩

theorem reportsOutOfRange_rangeCheck (p : Packet) : ReportsOutOfRange (rangeCheck p) := by
  cases p with
  | txStatus | modemStatus | transmitStatus => exact reportsOutOfRange_none
  | rx64 | rx16 | rx64Io | rx16Io =>
    exact (reportsOutOfRange_rssiCheck _).or (reportsOutOfRange_trailingCheck _ _)
  | deviceRequest =>
    exact (reportsOutOfRange_embeddedCheck _ _).or (reportsOutOfRange_trailingCheck _ _)
  | sendDataRequest =>
    exact (reportsOutOfRange_embeddedCheck _ _).or
      ((reportsOutOfRange_embeddedCheck _ _).or (reportsOutOfRange_trailingCheck _ _))
  | _ => exact reportsOutOfRange_trailingCheck _ _

/-- A packet out of its ranges is reported, as an `OutOfRange` (R240). -/
theorem rangeCheck_of_not_inRange {p : Packet} (h : inRange p = false) :
    ∃ field value lo hi, rangeCheck p = some (.outOfRange field value lo hi) := by
  cases hc : rangeCheck p with
  | none => simp [(rangeCheck_eq_none_iff p).mp hc] at h
  | some e =>
    obtain ⟨field, value, lo, hi, rfl⟩ := reportsOutOfRange_rangeCheck p e hc
    exact ⟨field, value, lo, hi, rfl⟩

/-! ## TX_FRAME and SEND (R190, R291) -/

theorem exec_txFrame (w : List Byte) (s : State) : exec (.txFrame w) s = .next (txFrame w s) := rfl

theorem lengthCheck_fits {w : List Byte} (h : w.length ≤ maxLen) : lengthCheck w = none :=
  if_neg (Nat.not_lt.mpr h)

theorem lengthCheck_tooLong {w : List Byte} (h : maxLen < w.length) :
    lengthCheck w = some (.outOfRange .length w.length 0 maxLen) := if_pos h

section
variable {s : State} {w : List Byte}

theorem txFrame_closed (ho : s.connOpen = false) : txFrame w s = s := by
  simp [txFrame, ho]

theorem txFrame_fits (ho : s.connOpen = true) (hl : w.length ≤ maxLen) :
    txFrame w s = s.pushTx (wrap s.cfg.escaped w) := by
  rw [txFrame, if_pos ho, lengthCheck_fits hl]

theorem txFrame_tooLong (ho : s.connOpen = true) (hl : maxLen < w.length) :
    txFrame w s = s.pushReq (.outOfRange .length w.length 0 maxLen) := by
  rw [txFrame, if_pos ho, lengthCheck_tooLong hl]
  rfl

end

theorem exec_send_rangeError {p : Packet} {e : ErrorEvent} (h : rangeCheck p = some e) (s : State) :
    exec (.send p) s = .next (s.pushReq e) := by
  change execSend p s = _
  rw [execSend, sendPacket, h]
  rfl

/-- SEND of a packet in its ranges is TX_FRAME of its payload (R291). -/
theorem exec_send_inRange {p : Packet} (h : inRange p = true) (s : State) :
    exec (.send p) s = .next (txFrame (payloadOf s.cfg p) s) := by
  change execSend p s = _
  rw [execSend, sendPacket, (rangeCheck_eq_none_iff p).mpr h]

/-! ## The tests of SEND_AND_WAIT, in the order of R331 -/

theorem waitCheck_rangeError {p : Packet} {e : ErrorEvent} (h : rangeCheck p = some e) (s : State) :
    waitCheck p s = some e := by
  rw [waitCheck, h, Option.some_or]

section
variable {s : State} {p : Packet} (hr : inRange p = true)
include hr

theorem waitCheck_tooLong (hl : maxLen < (payloadOf s.cfg p).length) :
    waitCheck p s = some (.outOfRange .length (payloadOf s.cfg p).length 0 maxLen) := by
  rw [waitCheck, (rangeCheck_eq_none_iff p).mpr hr, Option.none_or, lengthCheck_tooLong hl,
    Option.some_or]

variable (hl : (payloadOf s.cfg p).length ≤ maxLen)
include hl

theorem waitCheck_noFrameId (hf : packetFrameId p = none) :
    waitCheck p s = some .noPendingRequest := by
  rw [waitCheck, (rangeCheck_eq_none_iff p).mpr hr, Option.none_or, lengthCheck_fits hl,
    Option.none_or, hf]

variable {f : Byte} (hf : packetFrameId p = some f)
include hf

theorem waitCheck_frameId : waitCheck p s =
    if !s.connOpen then some (.connectionClosed none)
    else if (s.corrAt f).pending then some (.frameIdInUse f)
    else none := by
  rw [waitCheck, (rangeCheck_eq_none_iff p).mpr hr, Option.none_or, lengthCheck_fits hl,
    Option.none_or, hf]

theorem waitCheck_closed (ho : s.connOpen = false) :
    waitCheck p s = some (.connectionClosed none) := by
  simp [waitCheck_frameId hr hl hf, ho]

theorem waitCheck_inUse (ho : s.connOpen = true) (hp : (s.corrAt f).pending = true) :
    waitCheck p s = some (.frameIdInUse f) := by
  simp [waitCheck_frameId hr hl hf, ho, hp]

theorem waitCheck_passed (ho : s.connOpen = true) (hp : (s.corrAt f).pending = false) :
    waitCheck p s = none := by
  simp [waitCheck_frameId hr hl hf, ho, hp]

end

/-! ## SEND_AND_WAIT where unit 5 exists (R292) -/

section
variable {s : State} {p : Packet} (hc : s.cfg.corrPresent = true)
include hc

theorem exec_sendAndWait_present : exec (.sendAndWait p) s = .next (sendWaiting p s) := if_pos hc

theorem exec_sendAndWait_error {e : ErrorEvent} (h : waitCheck p s = some e) :
    exec (.sendAndWait p) s = .next (s.pushReq e) := by
  rw [exec_sendAndWait_present hc, sendWaiting, h]
  rfl

/-- Past its tests SEND_AND_WAIT registers the wait and transmits, in one step (R77). -/
theorem exec_sendAndWait_passed {f : Byte} (h : waitCheck p s = none)
    (hf : packetFrameId p = some f) :
    exec (.sendAndWait p) s =
      .next ((s.setCorrAt f { pending := true, reqType := packetCode s.cfg p }).pushTx
        (wrap s.cfg.escaped (payloadOf s.cfg p))) := by
  rw [exec_sendAndWait_present hc]
  obtain ⟨e, he, _⟩ | ⟨g, _, hg, hsend⟩ := sendWaiting_cases p s
  · rw [h] at he
    cases he
  · obtain rfl : f = g := Option.some.inj (hf.symm.trans hg)
    rw [hsend]

end

/-! ## The obligations of correlation -/

/-- Settles O39, by whether a wait is resolved. -/
theorem deliverResolvesOrQueues : Obligations.DeliverResolvesOrQueues := by
  intro s p
  exact ⟨fun _ h => exec_deliver_resolves h, exec_deliver_not_resolves⟩

/-- Settles O42: the first packet leaves its frame ID not pending, so the second resolves nothing. -/
theorem firstMatchWins : Obligations.FirstMatchWins := by
  intro s t p q f hp hq hstep
  obtain rfl : resolved f p s = t :=
    Host.Outcome.next.inj ((exec_deliver_resolves hp).symm.trans hstep)
  exact ⟨exec_deliver_not_resolves (not_resolves_of_not_pending hq (resolved_not_pending f p s)), rfl⟩

/-- Settles O44: each test by its own equation, then registration and transmission. -/
theorem sendAndWaitResult : Obligations.SendAndWaitResult := by
  intro s p hc n
  refine ⟨fun hr => ?_, fun hr hl => ?_, fun hr hl hf => ?_, fun f hr hl hf ho => ?_,
    fun f hr hl hf ho hp => ?_, fun f hr hl hf ho hp => ?_⟩
  · obtain ⟨field, value, lo, hi, he⟩ := rangeCheck_of_not_inRange hr
    exact ⟨field, value, lo, hi, exec_sendAndWait_error hc (waitCheck_rangeError he s)⟩
  · exact exec_sendAndWait_error hc (waitCheck_tooLong hr hl)
  · exact exec_sendAndWait_error hc (waitCheck_noFrameId hr hl hf)
  · exact exec_sendAndWait_error hc (waitCheck_closed hr hl hf ho)
  · exact exec_sendAndWait_error hc (waitCheck_inUse hr hl hf ho hp)
  · exact exec_sendAndWait_passed hc (waitCheck_passed hr hl hf ho hp) hf

/-- Settles O43: past the range checks SEND is TX_FRAME, by its three cases. -/
theorem sendOperationResult : Obligations.SendOperationResult := by
  intro s p
  refine ⟨fun hr => ?_, fun hr => ?_⟩
  · obtain ⟨field, value, lo, hi, he⟩ := rangeCheck_of_not_inRange hr
    exact ⟨field, value, lo, hi, exec_send_rangeError he s⟩
  · rw [exec_send_inRange hr, exec_txFrame]
    refine ⟨rfl, fun ho => ?_, fun ho hl => ?_, fun ho hl => ?_⟩
    · rw [txFrame_closed ho]
    · rw [txFrame_fits ho hl]
      rfl
    · rw [txFrame_tooLong ho hl]
      rfl

end Sys2Proof.Machine
end

section
/-! SUPPORT. The laws of the byte codec: the checksum under reordering, UNESCAPE_FROM on a sequence cut
in two, and the shape of what ESCAPE and the transmit envelope write. -/

namespace Sys2Proof.Machine

/-! ## The checksum and UNESCAPE_FROM on parts -/

theorem checksum_perm {p q : List Byte} (h : p.Perm q) : checksum p = checksum q := by
  rw [checksum_eq_ofNat, checksum_eq_ofNat, (h.map _).sum_eq]

/-- UNESCAPE_FROM goes on behind a cut with the flag it had there (R150). -/
theorem unescapeFrom_append (e : Bool) (v w : List Byte) :
    unescapeFrom e (v ++ w) =
      ((unescapeFrom e v).1 ++ (unescapeFrom (unescapeFrom e v).2 w).1,
        (unescapeFrom (unescapeFrom e v).2 w).2) := by
  induction v generalizing e with
  | nil => rfl
  | cons b v ih => simp [unescapeFrom_cons, ih]

/-! ## What ESCAPE writes (R146, R147) -/

theorem isSpecial_eq_decide :
    isSpecial = fun b => decide (b = 0x7E ∨ b = 0x7D ∨ b = 0x11 ∨ b = 0x13) := by
  funext b
  exact Bool.eq_iff_iff.mpr ((isSpecial_iff b).trans decide_eq_true_iff.symm)

/-- The second bytes of the four escape pairs (R94). -/
def pairSeconds : List Byte := [0x5E, 0x5D, 0x31, 0x33]

/-- The pair of a special byte is the marker and one of four bytes. -/
theorem escapeByte_pair {b : Byte} (h : isSpecial b = true) :
    ∃ x ∈ pairSeconds, escapeByte b = [0x7D, x] := by
  obtain rfl | rfl | rfl | rfl := (isSpecial_iff b).mp h
  · exact ⟨0x5E, by decide, by decide⟩
  · exact ⟨0x5D, by decide, by decide⟩
  · exact ⟨0x31, by decide, by decide⟩
  · exact ⟨0x33, by decide, by decide⟩

theorem escape_append (v w : List Byte) : escape (v ++ w) = escape v ++ escape w :=
  List.flatMap_append

theorem escape_length (r : List Byte) :
    (escape r).length = r.length + (r.filter isSpecial).length := by
  induction r with
  | nil => rfl
  | cons b r ih =>
    cases h : isSpecial b with
    | true =>
      rw [escape_cons, escapeByte_special h, List.filter_cons_of_pos h]
      simp [ih]
      omega
    | false =>
      rw [escape_cons, escapeByte_literal h, List.filter_cons_of_neg (by simp [h])]
      simp [ih]
      omega

/-- No byte that ESCAPE writes is a delimiter or a flow-control byte. -/
theorem ne_of_mem_escape {b : Byte} {r : List Byte} (h : b ∈ escape r) :
    b ≠ 0x7E ∧ b ≠ 0x11 ∧ b ≠ 0x13 := by
  obtain ⟨u, -, hb⟩ := List.mem_flatMap.mp h
  cases hu : isSpecial u with
  | true =>
    obtain ⟨x, hx, hpair⟩ := escapeByte_pair hu
    have hall : ∀ y ∈ (0x7D : Byte) :: pairSeconds, y ≠ 0x7E ∧ y ≠ 0x11 ∧ y ≠ 0x13 := by decide
    rw [hpair, List.mem_pair] at hb
    obtain rfl | rfl := hb
    · exact hall _ (by simp)
    · exact hall _ (by simp [hx])
  | false =>
    rw [escapeByte_literal hu, List.mem_singleton] at hb
    subst hb
    have hnot := mt (isSpecial_iff b).mpr (by simp [hu])
    simp only [not_or] at hnot
    exact ⟨hnot.1, hnot.2.2⟩

/-- Behind every marker that ESCAPE writes stands the second byte of a pair. -/
theorem escape_marker_next {r : List Byte} {k : Nat} (h : (escape r)[k]? = some 0x7D) :
    ∃ x ∈ pairSeconds, (escape r)[k + 1]? = some x := by
  induction r generalizing k with
  | nil => simp at h
  | cons b r ih =>
    cases hb : isSpecial b with
    | true =>
      obtain ⟨x, hx, hpair⟩ := escapeByte_pair hb
      rw [escape_cons, hpair] at h ⊢
      match k with
      | 0 => exact ⟨x, hx, rfl⟩
      | 1 =>
        obtain rfl : x = 0x7D := Option.some.inj h
        exact absurd hx (by decide)
      | k + 2 => exact ih h
    | false =>
      rw [escape_cons, escapeByte_literal hb] at h ⊢
      match k with
      | 0 => exact absurd (Option.some.inj h) (ne_marker_of_not_special hb)
      | k + 1 => exact ih h

/-! ## The transmit envelope (R190) -/

theorem bytesN_two (n : Nat) : bytesN 2 n = [BitVec.ofNat 8 (n / 256), BitVec.ofNat 8 n] := by
  simp [bytesN]

/-- The logical bytes behind the delimiter of a transmitted frame: length, payload, checksum. -/
def frameBody (p : List Byte) (c : Byte) : List Byte := bytesN 2 p.length ++ p ++ [c]

theorem frameBody_length (p : List Byte) (c : Byte) : (frameBody p c).length = p.length + 3 := by
  simp [frameBody]
  omega

theorem wrap_eq (e : Bool) (p : List Byte) :
    wrap e p = 0x7E :: stuff e (frameBody p (checksum p)) := rfl

theorem wrap_false_length (p : List Byte) : (wrap false p).length = p.length + 4 := by
  rw [wrap_eq, List.length_cons, stuff, if_neg Bool.false_ne_true, frameBody_length]

theorem wrap_true_length (p : List Byte) : (wrap true p).length =
    p.length + 4 + ((frameBody p (checksum p)).filter isSpecial).length := by
  rw [wrap_eq, List.length_cons, stuff, if_pos rfl, escape_length, frameBody_length]
  omega

/-! ## The obligations -/

/-- Settles O10: the complement as an exclusive or, the sum of a rearranged list, and UNESCAPE_FROM
across a cut. -/
theorem checksumAndUnescapeLaws : Obligations.ChecksumAndUnescapeLaws := by
  refine ⟨fun p => ?_, fun p q h => checksum_perm h, ?_⟩
  · rw [checksum_eq_not]
    exact BitVec.xor_allOnes.symm
  · intro e e1 e2 w1 w2 o1 o2 h1 h2
    rw [unescapeFrom_append, h1, h2]

/-- Settles O13: ESCAPE byte by byte, then the envelope around it. -/
theorem escapedBytesAndFrameShape : Obligations.EscapedBytesAndFrameShape := by
  refine ⟨?length, ?absent, fun r k h => escape_marker_next h, escape_append, fun p => ?frame⟩
  case length =>
    intro r
    rw [escape_length, isSpecial_eq_decide]
  case absent =>
    intro r
    exact ⟨fun h => (ne_of_mem_escape h).1 rfl, fun h => (ne_of_mem_escape h).2.1 rfl,
      fun h => (ne_of_mem_escape h).2.2 rfl⟩
  case frame =>
    refine ⟨wrap_false_length p, ⟨_, ?_, wrap_true_length p, ?_⟩, fun e => rfl, ?_⟩
    · exact (List.length_filter_le _ _).trans (frameBody_length p _).le
    · rw [frameBody, bytesN_two, isSpecial_eq_decide]
    · intro b hb
      exact ne_of_mem_escape hb

/-- Settles O12: each row is the raw form of its one byte. -/
theorem escapePairRowsResults : Obligations.EscapePairRowsResults :=
  fun _ => ⟨rfl, rfl, rfl, rfl⟩

/-- Settles O14, by the equation of each case. -/
theorem unescapeOperationResult : Obligations.UnescapeOperationResult :=
  ⟨fun _ _ _ => rfl, unescapeFrom_nil, unescapeFrom_pending, unescapeFrom_marker,
    fun _ w h => unescapeFrom_literal h w⟩

end Sys2Proof.Machine
end

section
/-! SUPPORT. The receive path over any bytes: reads and their grouping, the three things a raw byte can
do to the state, what it leaves alone, and when it stops. -/

namespace Sys2Proof.Machine

/-! ## Reads (R68) -/

theorem feed_eq_receiveAll (w : List Byte) (s : State) : feed w s = receiveAll w s := by
  induction w generalizing s with
  | nil => rfl
  | cons b w ih =>
    rw [feed, receiveAll, exec_rxByte]
    cases receive b s with
    | next t => exact ih t
    | fault _ => rfl
    | refused _ => rfl

theorem receiveAll_append (v w : List Byte) (s : State) :
    receiveAll (v ++ w) s = andThen (receiveAll v s) (receiveAll w) := by
  induction v generalizing s with
  | nil => rfl
  | cons b v ih =>
    rw [List.cons_append, receiveAll, receiveAll]
    cases receive b s with
    | next t => exact ih t
    | fault _ => rfl
    | refused _ => rfl

theorem receiveAll_singleton (b : Byte) (s : State) : receiveAll [b] s = receive b s := by
  rw [receiveAll]
  cases receive b s <;> rfl

/-- Receiving goes through exactly when its first byte and then the rest do. -/
theorem receiveAll_cons_eq_next {b : Byte} {w : List Byte} {s u : State} :
    receiveAll (b :: w) s = .next u ↔ ∃ t, receive b s = .next t ∧ receiveAll w t = .next u := by
  rw [receiveAll]
  cases receive b s <;> simp

theorem receiveAll_append_eq_next {v w : List Byte} {s u : State} :
    receiveAll (v ++ w) s = .next u ↔ ∃ t, receiveAll v s = .next t ∧ receiveAll w t = .next u := by
  rw [receiveAll_append]
  cases receiveAll v s <;> simp [andThen]

/-- A read that parses is the raw form of the frame it parses to. -/
theorem rawFrame_of_parseFrame {e : Bool} {w : List Byte} {r : List Byte × Byte}
    (h : parseFrame e w = some r) : rawFrame e r.1 r.2 = w := by
  obtain ⟨hraw, hr⟩ := Option.ite_none_right_eq_some.mp h
  rw [← Option.some.inj hr]
  exact hraw

section
variable {x : Ctx}

theorem decode_frame {w : List Byte} {r : List Byte × Byte}
    (h : parseFrame x.cfg.escaped w = some r) : decode x (.rxChunk w) = .ok (.frame r.1 r.2) := by
  rw [decode, h]

theorem decode_notOneFrame {w : List Byte} (h : parseFrame x.cfg.escaped w = none) :
    decode x (.rxChunk w) = .error (.notOneFrame w) := by
  rw [decode, h]

end

/-- A read is received byte by byte, whether it is one whole frame or not. -/
theorem step_rxChunk {s : State} {w : List Byte} {q : List Item} (h : s.input = .rxChunk w :: q) :
    step s = receiveAll w (s.setInput q) := by
  cases hp : parseFrame s.cfg.escaped w with
  | none =>
    rw [step_rejected h (decode_notOneFrame (x := ctxOf s) hp)]
    rfl
  | some r =>
    rw [step_decoded h (decode_frame (x := ctxOf s) hp), ← rawFrame_of_parseFrame hp]
    rfl

/-! ## What a raw byte can do -/

theorem countLogic_awaiting {s : State} (u : Byte) (h : s.rx.state = .awaitingDelimiter) :
    countLogic u s = .next s := by
  simp [countLogic, h]

theorem countLogic_length {s : State} (u : Byte) (h : s.rx.state = .readingLength) :
    countLogic u s = .next (stepLength u s) := by
  simp [countLogic, h]

theorem stepLength_eq_setRx (u : Byte) (s : State) : ∃ r, stepLength u s = s.setRx r := by
  unfold stepLength
  split
  · exact ⟨_, rfl⟩
  · exact ⟨_, rfl⟩

/-- The three things a step of the receive path can do to a state: move the RX registers, and with them
report a wrong checksum, or emit a frame and dispatch it. -/
inductive RxEffect (s : State) : State → Prop where
  | moved (r : Rx) : RxEffect s (s.setRx r)
  | rejected (r : Rx) : RxEffect s ((s.setRx r).pushEvt .checksumError)
  | dispatched (r : Rx) (p : List Byte) : RxEffect s (dispatch p ((s.setRx r).pushFrame p))

theorem RxEffect.unchanged (s : State) : RxEffect s s := .moved s.rx

/-- Registers moved before do not show. -/
theorem RxEffect.of_setRx {s t : State} {r : Rx} (h : RxEffect (s.setRx r) t) : RxEffect s t := by
  cases h with
  | moved r' => exact .moved r'
  | rejected r' => exact .rejected r'
  | dispatched r' p => exact .dispatched r' p

theorem stepChecksum_effect (u : Byte) (s : State) : RxEffect s (stepChecksum u s) := by
  obtain ⟨-, h⟩ | ⟨-, h⟩ := stepChecksum_cases u s
  · rw [h]
    exact .dispatched _ _
  · rw [h]
    exact .rejected _

theorem countLogic_effect {u : Byte} {s t : State} (h : countLogic u s = .next t) :
    RxEffect s t := by
  obtain ⟨-, hc⟩ | ⟨-, hc⟩ | ⟨-, hc⟩ | ⟨-, hc⟩ := countLogic_cases u s
  · cases hc.symm.trans h
    exact .unchanged s
  · cases hc.symm.trans h
    obtain ⟨r, hr⟩ := stepLength_eq_setRx u s
    rw [hr]
    exact .moved r
  · obtain ⟨-, hp⟩ | ⟨-, hp⟩ := stepPayload_cases u s
    · cases (hc.trans hp).symm.trans h
      exact .moved _
    · cases (hc.trans hp).symm.trans h
  · cases hc.symm.trans h
    exact stepChecksum_effect u s

theorem receive_effect {b : Byte} {s t : State} (h : receive b s = .next t) : RxEffect s t := by
  obtain ⟨-, hr⟩ | ⟨-, -, -, hr⟩ | ⟨-, -, -, hr⟩ | ⟨-, -, -, -, -, hr⟩ | ⟨-, -, -, -, hr⟩ |
    ⟨-, -, -, hr⟩ := receive_cases b s
  · cases hr.symm.trans h
    exact .unchanged s
  · cases hr.symm.trans h
    exact .moved _
  · cases hr.symm.trans h
    exact .unchanged s
  · cases hr.symm.trans h
    exact .moved _
  · exact (countLogic_effect (hr.symm.trans h)).of_setRx
  · exact countLogic_effect (hr.symm.trans h)

/-- What holds of every effect of one raw byte, and chains, holds of any read. -/
theorem receiveAll_rel {R : State → State → Prop} (hrefl : ∀ s, R s s)
    (htrans : ∀ s t u, R s t → R t u → R s u) (heffect : ∀ s t, RxEffect s t → R s t)
    {w : List Byte} {s t : State} (h : receiveAll w s = .next t) : R s t := by
  induction w generalizing s with
  | nil =>
    cases h
    exact hrefl _
  | cons b w ih =>
    obtain ⟨u, hu, hw⟩ := receiveAll_cons_eq_next.mp h
    exact htrans _ _ _ (heffect _ _ (receive_effect hu)) (ih hw)

/-! ## What the receive path leaves alone (R335) -/

/-- The parts of the state that the receive path does not write. -/
structure ReceiveKeeps (s t : State) : Prop where
  cfg : t.cfg = s.cfg
  connOpen : t.connOpen = s.connOpen
  txOut : t.txOut = s.txOut
  pktOut : t.pktOut = s.pktOut
  reqOut : t.reqOut = s.reqOut
  codecOut : t.codecOut = s.codecOut
  input : t.input = s.input

theorem ReceiveKeeps.refl (s : State) : ReceiveKeeps s s := ⟨rfl, rfl, rfl, rfl, rfl, rfl, rfl⟩

theorem ReceiveKeeps.trans {s t u : State} (h : ReceiveKeeps s t) (k : ReceiveKeeps t u) :
    ReceiveKeeps s u :=
  ⟨k.cfg.trans h.cfg, k.connOpen.trans h.connOpen, k.txOut.trans h.txOut, k.pktOut.trans h.pktOut,
    k.reqOut.trans h.reqOut, k.codecOut.trans h.codecOut, k.input.trans h.input⟩

theorem deliver_keeps (d : Decoded) (s : State) : ReceiveKeeps s (deliver d s) := by
  obtain ⟨f, -, -, h⟩ | ⟨-, h⟩ := deliver_cases d s
  · rw [h]
    exact ⟨rfl, rfl, rfl, rfl, rfl, rfl, rfl⟩
  · rw [h]
    exact ⟨rfl, rfl, rfl, rfl, rfl, rfl, rfl⟩

theorem dispatch_keeps (p : List Byte) (s : State) : ReceiveKeeps s (dispatch p s) := by
  obtain ⟨e, -, h⟩ | ⟨pkt, -, h⟩ := dispatch_cases p s
  · rw [h]
    exact ⟨rfl, rfl, rfl, rfl, rfl, rfl, rfl⟩
  · rw [h]
    exact deliver_keeps _ s

theorem RxEffect.keeps {s t : State} (h : RxEffect s t) : ReceiveKeeps s t := by
  cases h with
  | moved r => exact ⟨rfl, rfl, rfl, rfl, rfl, rfl, rfl⟩
  | rejected r => exact ⟨rfl, rfl, rfl, rfl, rfl, rfl, rfl⟩
  | dispatched r p =>
    have hframe : ReceiveKeeps s ((s.setRx r).pushFrame p) := ⟨rfl, rfl, rfl, rfl, rfl, rfl, rfl⟩
    exact hframe.trans (dispatch_keeps p _)

theorem receiveAll_keeps {w : List Byte} {s t : State} (h : receiveAll w s = .next t) :
    ReceiveKeeps s t :=
  receiveAll_rel ReceiveKeeps.refl (fun _ _ _ => ReceiveKeeps.trans) (fun _ _ => RxEffect.keeps) h

/-! ## When a raw byte completes (R28) -/

section
variable {e : Bool} {r : Rx} (h : RxOk e r)
include h

theorem RxOk.length (hs : r.state = .readingLength) : (r.cnt = 0 ∨ r.cnt = 1) ∧ r.sum = 0 := by
  have := h.2
  rwa [hs] at this

theorem RxOk.payload (hs : r.state = .readingPayload) :
    1 ≤ r.len.toNat ∧ r.cnt.toNat < r.len.toNat := by
  have := h.2
  rwa [hs] at this

theorem RxOk.checksum (hs : r.state = .readingChecksum) : r.cnt = r.len := by
  have := h.2
  rwa [hs] at this

end

/-- The count logic stops at one place only: a payload byte without room in the buffer (R27). -/
theorem countLogic_completes {s : State} (u : Byte)
    (h : s.rx.state = .readingPayload → s.rx.cnt.toNat < s.rx.len.toNat) :
    ∃ t, countLogic u s = .next t := by
  obtain ⟨-, hc⟩ | ⟨-, hc⟩ | ⟨hs, hc⟩ | ⟨-, hc⟩ := countLogic_cases u s
  · exact ⟨_, hc⟩
  · exact ⟨_, hc⟩
  · exact ⟨_, hc.trans (stepPayload_next u hs (h hs))⟩
  · exact ⟨_, hc⟩

theorem receive_completes {s : State} (b : Byte) (h : RxOk s.cfg.escaped s.rx) :
    ∃ t, receive b s = .next t := by
  have hroom (hs : s.rx.state = .readingPayload) := (h.payload hs).2
  obtain ⟨-, hr⟩ | ⟨-, -, -, hr⟩ | ⟨-, -, -, hr⟩ | ⟨-, -, -, -, -, hr⟩ | ⟨-, -, -, -, hr⟩ |
    ⟨-, -, -, hr⟩ := receive_cases b s
  · exact ⟨_, hr⟩
  · exact ⟨_, hr⟩
  · exact ⟨_, hr⟩
  · exact ⟨_, hr⟩
  · rw [hr]
    exact countLogic_completes _ hroom
  · rw [hr]
    exact countLogic_completes _ hroom

theorem stepPayload_fault_iff (u : Byte) (s : State) :
    stepPayload u s = .fault .bufIndex ↔ s.rx.cnt = 65535 := by
  have hmax : s.rx.cnt = 65535 ↔ bufSize ≤ s.rx.cnt.toNat := by
    have := s.rx.cnt.isLt
    rw [← BitVec.toNat_inj]
    unfold bufSize
    change _ = 65535 ↔ _
    omega
  obtain ⟨hlt, h⟩ | ⟨hge, h⟩ := stepPayload_cases u s
  · rw [h, hmax]
    exact iff_of_false nofun (Nat.not_le.mpr hlt)
  · rw [h, hmax]
    exact iff_of_true rfl hge

/-! ## The class of a raw byte (R95) -/

theorem decode_rxIn (x : Ctx) (b : Byte) : decode x (.rxIn b) = .ok (classify x b) := rfl

theorem classify_awaiting {x : Ctx} (h : x.rxState = .awaitingDelimiter) (b : Byte) :
    classify x b = if b = 0x7E then .rawDelimiter else .rawNoise b := by
  simp [classify, h]

theorem classify_inFrame {x : Ctx} (h : x.rxState ≠ .awaitingDelimiter) (b : Byte) :
    classify x b =
      if x.cfg.escaped then
        if x.esc then .rawEscapedSecond b else if b = 0x7D then .rawEscapeMarker else .rawLiteral b
      else .rawLiteral b := by
  unfold classify
  cases hs : x.rxState with
  | awaitingDelimiter => exact absurd hs h
  | readingLength => rfl
  | readingPayload => rfl
  | readingChecksum => rfl

section
variable {x : Ctx} (hn : x.rxState ≠ .awaitingDelimiter)
include hn

theorem classify_plain (he : x.cfg.escaped = false) (b : Byte) : classify x b = .rawLiteral b := by
  rw [classify_inFrame hn, he]
  rfl

variable (he : x.cfg.escaped = true)
include he

theorem classify_second (hx : x.esc = true) (b : Byte) : classify x b = .rawEscapedSecond b := by
  rw [classify_inFrame hn, he, hx]
  rfl

theorem classify_marker (hx : x.esc = false) : classify x 0x7D = .rawEscapeMarker := by
  rw [classify_inFrame hn, he, hx]
  rfl

theorem classify_literal (hx : x.esc = false) {b : Byte} (hb : b ≠ 0x7D) :
    classify x b = .rawLiteral b := by
  rw [classify_inFrame hn, he, hx]
  exact if_neg hb

end

/-- In plain mode the unescape stage changes nothing (R163). -/
theorem afterUnescape_of_plain {s : State} (h : s.cfg.escaped = false) : afterUnescape s = s := by
  have hesc : escAfter s = s.rx.esc := by simp [escAfter, h]
  rw [afterUnescape, hesc]
  rfl

/-! ## The length field (R166) -/

theorem stepLength_high {s : State} (u : Byte) (h : s.rx.cnt = 0) :
    stepLength u s = s.setRx { s.rx with len := u ++ s.rx.len.extractLsb' 0 8, cnt := 1 } :=
  if_pos h

theorem stepLength_low {s : State} (u : Byte) (h : s.rx.cnt = 1) :
    stepLength u s = s.setRx { s.rx with
      len := s.rx.len.extractLsb' 8 8 ++ u, cnt := 0,
      state := if s.rx.len.extractLsb' 8 8 ++ u = (0 : U16) then .readingChecksum
               else .readingPayload } := by
  rw [stepLength, if_neg (by rw [h]; decide)]

theorem append_byte_eq_zero_iff (x u : Byte) : x ++ u = (0 : U16) ↔ x = 0 ∧ u = 0 := by
  rw [← BitVec.toNat_inj, ← BitVec.toNat_inj, ← BitVec.toNat_inj, toNat_append_byte]
  change _ = 0 ↔ _ = 0 ∧ _ = 0
  omega

/-! ## The obligations -/

/-- Settles O23: a whole read is received byte by byte, and so are its parts. -/
theorem readGroupingDoesNotMatter : Obligations.ReadGroupingDoesNotMatter := by
  constructor
  · intro v w s
    have hfeed : feed w = receiveAll w := funext (feed_eq_receiveAll w)
    rw [feed_eq_receiveAll, feed_eq_receiveAll, hfeed, receiveAll_append]
  · intro w q s h
    rw [step_rxChunk h, feed_eq_receiveAll]
    rfl

/-- Settles O6, class by class: the row that R95 gives the byte, then the logical byte it delivers. -/
theorem rawByteMeaning : Obligations.RawByteMeaning := by
  intro s b ho x
  have hrow : ∀ i, classify x b = i → decode x (.rxIn b) = .ok i ∧ exec i s = exec (.rxByte b) s := by
    rintro i rfl
    exact ⟨decode_rxIn x b, exec_classify b s⟩
  refine ⟨fun ha hb => ?_, fun ha hb => ?_, fun hn he => ?_, fun hn he hx hb => ?_,
    fun hn he hx hb => ?_, fun hn he hx => ?_⟩
  · exact hrow _ ((classify_awaiting ha b).trans (if_pos hb))
  · obtain ⟨hd, hi⟩ := hrow _ ((classify_awaiting ha b).trans (if_neg hb))
    exact ⟨hd, hi, by rw [exec_rxByte, receive_awaiting b ho ha, stepAwait_noise hb]⟩
  · have hu : Delivers s b b := ⟨ho, hn, .inl ⟨he, rfl⟩⟩
    obtain ⟨hd, hi⟩ := hrow (.rawLiteral b) (classify_plain hn he b)
    exact ⟨hd, hi, by rw [exec_rxByte, receive_of_delivers hu, afterUnescape_of_plain he]⟩
  · obtain ⟨hd, hi⟩ := hrow .rawEscapeMarker (hb ▸ classify_marker hn he hx)
    refine ⟨hd, hi, ?_⟩
    rw [hb, exec_rxByte, receive_marker ho hn he hx]
    rfl
  · have hu : Delivers s b b := ⟨ho, hn, .inr (.inr ⟨he, hx, hb, rfl⟩)⟩
    obtain ⟨hd, hi⟩ := hrow (.rawLiteral b) (classify_literal hn he hx hb)
    exact ⟨hd, hi, by rw [exec_rxByte, receive_of_delivers hu, afterUnescape_of_not_pending hx]⟩
  · have hu : Delivers s b (b ^^^ 0x20) := ⟨ho, hn, .inr (.inl ⟨he, hx, rfl⟩)⟩
    obtain ⟨hd, hi⟩ := hrow (.rawEscapedSecond b) (classify_second hn he hx b)
    refine ⟨hd, hi, ?_⟩
    rw [exec_rxByte, receive_of_delivers hu, afterUnescape_of_escaped he]
    rfl

/-- Settles O17: the high byte, then the low byte, and the state by whether both are 0. -/
theorem lengthByteStep : Obligations.LengthByteStep := by
  intro s b u i hd hi hs
  have hstate : (afterUnescape s).rx.state = .readingLength := by rw [afterUnescape_state, hs]
  rw [exec_of_delivers hd hi, countLogic_length u hstate]
  constructor
  · intro hcnt
    rw [stepLength_high u (by rw [afterUnescape_cnt, hcnt])]
    rfl
  · intro hcnt
    rw [stepLength_low u (by rw [afterUnescape_cnt, hcnt])]
    simp only [append_byte_eq_zero_iff]
    rfl

/-- Settles O20: every row is RX_BYTE of its byte, which completes below the length; it stops exactly
where the payload step does. -/
theorem rawBytesComplete : Obligations.RawBytesComplete := by
  intro s b i
  constructor
  · intro hok hi
    obtain ⟨k, hk⟩ : ∃ k, exec i s = receive k s := by
      obtain rfl | rfl | rfl | rfl | rfl | rfl := hi
      · exact ⟨b, exec_rxByte b s⟩
      · exact ⟨0x7E, exec_rawDelimiter s⟩
      · exact ⟨b, exec_rawNoise b s⟩
      · exact ⟨0x7D, exec_rawEscapeMarker s⟩
      · exact ⟨b, exec_rawEscapedSecond b s⟩
      · exact ⟨b, exec_rawLiteral b s⟩
    obtain ⟨t, ht⟩ := receive_completes k hok
    have keeps := (receive_effect ht).keeps
    exact ⟨t, hk.trans ht, keeps.cfg, keeps.connOpen, keeps.txOut, keeps.pktOut, keeps.reqOut,
      keeps.codecOut, keeps.input⟩
  · intro u hd hi hs
    have hstate : (afterUnescape s).rx.state = .readingPayload := by rw [afterUnescape_state, hs]
    rw [exec_of_delivers hd hi, countLogic_payload u hstate, stepPayload_fault_iff,
      afterUnescape_cnt]

end Sys2Proof.Machine
end

section
/-! SUPPORT. A frame as a whole: the registers after its length field and each payload byte, the
checksum byte that ends it, and frames among noise. -/

namespace Sys2Proof.Machine

/-! ## One logical byte in the raw form of the mode -/

theorem stuff_append (e : Bool) (v w : List Byte) : stuff e (v ++ w) = stuff e v ++ stuff e w := by
  cases e with
  | false => rfl
  | true => exact escape_append v w

/-- The raw form of one byte: itself, or in escaped mode its pair (R94). -/
theorem stuff_singleton_cases (e : Bool) (u : Byte) :
    (stuff e [u] = [u] ∧ (e = true → u ≠ 0x7D)) ∨ (e = true ∧ stuff e [u] = [0x7D, u ^^^ 0x20]) := by
  cases e with
  | false => exact .inl ⟨rfl, nofun⟩
  | true =>
    have hstuff : stuff true [u] = escapeByte u := List.append_nil _
    cases hu : isSpecial u with
    | true => exact .inr ⟨rfl, hstuff.trans (escapeByte_special hu)⟩
    | false => exact .inl ⟨hstuff.trans (escapeByte_literal hu), fun _ => ne_marker_of_not_special hu⟩

section
variable {s : State} (ho : s.connOpen = true) (hn : s.rx.state ≠ .awaitingDelimiter)
  (hx : s.rx.esc = false)
include ho hn hx

/-- Within a frame the raw form of a byte is the count logic on the byte (R160, R163). -/
theorem receiveAll_stuff_singleton (u : Byte) :
    receiveAll (stuff s.cfg.escaped [u]) s = countLogic u s := by
  obtain ⟨h, hu⟩ | ⟨he, h⟩ := stuff_singleton_cases s.cfg.escaped u
  · have hd : Delivers s u u := by
      refine ⟨ho, hn, ?_⟩
      cases he : s.cfg.escaped with
      | false => exact .inl ⟨rfl, rfl⟩
      | true => exact .inr (.inr ⟨rfl, hx, hu he, rfl⟩)
    rw [h, receiveAll_singleton, receive_of_delivers hd, afterUnescape_of_not_pending hx]
  · have hd : Delivers (s.setRx { s.rx with esc := true }) (u ^^^ 0x20) u :=
      ⟨ho, hn, .inr (.inl ⟨he, rfl, (xor_mask_twice u).symm⟩)⟩
    have hback : afterUnescape (s.setRx { s.rx with esc := true }) = s := by
      rw [afterUnescape_of_escaped (s := s.setRx { s.rx with esc := true }) he, ← hx]
      rfl
    rw [h, receiveAll_cons_next (receive_marker ho hn he hx), receiveAll_singleton,
      receive_of_delivers hd, hback]

/-- Without its last raw byte the raw form of a byte moves at most `RX.esc`. -/
theorem receiveAll_stuff_dropLast (u : Byte) :
    ∃ r, receiveAll (stuff s.cfg.escaped [u]).dropLast s = .next (s.setRx r) := by
  obtain ⟨h, -⟩ | ⟨he, h⟩ := stuff_singleton_cases s.cfg.escaped u
  · rw [h]
    exact ⟨s.rx, rfl⟩
  · rw [h]
    exact ⟨_, receiveAll_singleton 0x7D s ▸ receive_marker ho hn he hx⟩

end

/-! ## The registers within a frame -/

/-- The registers of a frame of `n` payload bytes of which `q` have arrived, the buffer having been `m`
before the frame (R22 to R27). -/
structure Stored (m : Memory) (n : U16) (q : List Byte) (r : Rx) : Prop where
  state : r.state = if q.length = n.toNat then .readingChecksum else .readingPayload
  esc : r.esc = false
  len : r.len = n
  cnt : r.cnt.toNat = q.length
  sum : r.sum = byteSum q
  buf : m.wf = true → r.buf.wf = true ∧ r.buf.slice q.length = q

theorem Stored.inFrame {m : Memory} {n : U16} {q : List Byte} {r : Rx} (h : Stored m n q r) :
    r.state ≠ .awaitingDelimiter := by
  rw [h.state]
  split <;> nofun

/-- The two length bytes of R91, read back as the length. -/
theorem lengthBytes_append (n : Nat) :
    BitVec.ofNat 8 (n / 256) ++ BitVec.ofNat 8 n = (BitVec.ofNat 16 n : U16) := by
  rw [← BitVec.toNat_inj, toNat_append_byte]
  simp only [BitVec.toNat_ofNat]
  omega

theorem extract_high_append (h l : Byte) : (h ++ l : U16).extractLsb' 8 8 = h := by
  rw [← BitVec.toNat_inj, BitVec.extractLsb'_toNat, toNat_append_byte, Nat.shiftRight_eq_div_pow]
  have := h.isLt
  have := l.isLt
  omega

/-- The registers behind the length field of a frame of `n` payload bytes (R166). -/
def headerRx (m : Memory) (n : U16) : Rx :=
  { state := if n = 0 then .readingChecksum else .readingPayload, esc := false, len := n, cnt := 0,
    sum := 0, buf := m }

theorem stored_headerRx (m : Memory) (n : U16) : Stored m n [] (headerRx m n) where
  state := by
    have hzero : n = 0 ↔ ([] : List Byte).length = n.toNat := by
      rw [← BitVec.toNat_inj]
      exact eq_comm
    simp only [headerRx, hzero]
  esc := rfl
  len := rfl
  cnt := rfl
  sum := rfl
  buf := fun h => ⟨h, rfl⟩

section
variable {s : State} (ho : s.connOpen = true)
include ho

/-- The delimiter and the two length bytes (R162, R166). -/
theorem receiveAll_header (ha : s.rx.state = .awaitingDelimiter) (h l : Byte) :
    receiveAll (0x7E :: stuff s.cfg.escaped [h, l]) s =
      .next (s.setRx (headerRx s.rx.buf (h ++ l))) := by
  have hstart : receive 0x7E s = .next (startFrame s) := by
    rw [receive_awaiting _ ho ha, stepAwait_delimiter]
  have hhigh : receiveAll (stuff s.cfg.escaped [h]) (startFrame s) =
      .next (stepLength h (startFrame s)) :=
    (receiveAll_stuff_singleton (s := startFrame s) ho nofun rfl h).trans (countLogic_length h rfl)
  have hlow : receiveAll (stuff s.cfg.escaped [l]) (stepLength h (startFrame s)) =
      .next (stepLength l (stepLength h (startFrame s))) :=
    (receiveAll_stuff_singleton (s := stepLength h (startFrame s)) ho nofun rfl l).trans
      (countLogic_length l rfl)
  have hrest : stuff s.cfg.escaped [h, l] = stuff s.cfg.escaped [h] ++ stuff s.cfg.escaped [l] :=
    stuff_append _ [h] [l]
  rw [receiveAll_cons_next hstart, hrest, receiveAll_append_next hhigh, hlow,
    stepLength_low l (by rw [stepLength_high h rfl]; rfl), stepLength_high h rfl]
  simp only [setRx_rx, extract_high_append]
  rfl

end

/-- The registers after the payload byte `u` (R167). -/
def payloadRx (r : Rx) (u : Byte) : Rx :=
  { r with
    state := if r.cnt.toNat + 1 = r.len.toNat then .readingChecksum else .readingPayload
    cnt := r.cnt + 1, sum := r.sum + u, buf := r.buf.write r.cnt.toNat u }

section
variable {m : Memory} {n : U16} {q : List Byte} {r : Rx}

theorem Stored.payloadRx (h : Stored m n q r) (hlt : q.length < n.toNat) (u : Byte) :
    Stored m n (q ++ [u]) (payloadRx r u) where
  state := by simp only [Machine.payloadRx, h.cnt, h.len, List.length_append, List.length_singleton]
  esc := h.esc
  len := h.len
  cnt := by
    have hn := n.isLt
    have hc := h.cnt
    simp only [Machine.payloadRx, List.length_append, List.length_singleton]
    bv_omega
  sum := by rw [byteSum_append_singleton, ← h.sum]; rfl
  buf := fun hm => by
    obtain ⟨hwf, hslice⟩ := h.buf hm
    have hroom : q.length < bufSize := h.cnt ▸ count_lt_bufSize (h.cnt ▸ h.len ▸ hlt)
    simp only [Machine.payloadRx, h.cnt, List.length_append, List.length_singleton]
    exact ⟨Memory.write_wf hwf hroom, by rw [Memory.slice_write hwf, hslice]⟩

variable {s : State} (ho : s.connOpen = true)
include ho

/-- One payload byte (R167). -/
theorem receiveAll_payloadByte (h : Stored m n q r) (hlt : q.length < n.toNat) (u : Byte) :
    receiveAll (stuff s.cfg.escaped [u]) (s.setRx r) = .next (s.setRx (payloadRx r u)) := by
  have hstate : r.state = .readingPayload := h.state.trans (if_neg hlt.ne)
  have hroom : r.cnt.toNat < r.len.toNat := by rwa [h.cnt, h.len]
  have hbyte := receiveAll_stuff_singleton (s := s.setRx r) ho h.inFrame h.esc u
  exact hbyte.trans ((countLogic_payload (s := s.setRx r) u hstate).trans
    (stepPayload_next (s := s.setRx r) u hstate hroom))

/-- The payload bytes that are still to come. -/
theorem receiveAll_payload (h : Stored m n q r) {p : List Byte}
    (hle : q.length + p.length ≤ n.toNat) :
    ∃ r', receiveAll (stuff s.cfg.escaped p) (s.setRx r) = .next (s.setRx r') ∧
      Stored m n (q ++ p) r' := by
  induction p generalizing q r with
  | nil =>
    refine ⟨r, ?_, by rwa [List.append_nil]⟩
    cases s.cfg.escaped <;> rfl
  | cons u p ih =>
    have hlt : q.length < n.toNat := by
      rw [List.length_cons] at hle
      omega
    have hrest : (q ++ [u]).length + p.length ≤ n.toNat := by
      rw [List.length_append, List.length_singleton]
      rw [List.length_cons] at hle
      omega
    obtain ⟨r', hr', hst⟩ := ih (h.payloadRx hlt u) hrest
    refine ⟨r', ?_, by rwa [List.append_assoc] at hst⟩
    have hcut : stuff s.cfg.escaped (u :: p) = stuff s.cfg.escaped [u] ++ stuff s.cfg.escaped p :=
      stuff_append _ [u] p
    rw [hcut, receiveAll_append_next (receiveAll_payloadByte ho h hlt u), hr']

end

/-! ## A frame up to its checksum byte, and with it -/

/-- What goes on the wire before the checksum byte of a frame. -/
def rawFrameHead (e : Bool) (p : List Byte) : List Byte := 0x7E :: stuff e (bytesN 2 p.length ++ p)

theorem rawFrame_eq (e : Bool) (p : List Byte) (c : Byte) :
    rawFrame e p c = rawFrameHead e p ++ stuff e [c] := by
  rw [rawFrame, rawFrameHead, stuff_append, List.cons_append]

section
variable {s : State} {p : List Byte} (ho : s.connOpen = true)
  (ha : s.rx.state = .awaitingDelimiter) (hp : p.length ≤ 65535)
include ho ha hp

theorem receiveAll_rawFrameHead :
    ∃ r, receiveAll (rawFrameHead s.cfg.escaped p) s = .next (s.setRx r) ∧
      Stored s.rx.buf (BitVec.ofNat 16 p.length) p r := by
  have hlen : ([] : List Byte).length + p.length ≤ (BitVec.ofNat 16 p.length).toNat := by
    rw [BitVec.toNat_ofNat, List.length_nil]
    omega
  obtain ⟨r, hr, hst⟩ := receiveAll_payload ho (stored_headerRx s.rx.buf _) hlen
  refine ⟨r, ?_, hst⟩
  have hheader := receiveAll_header ho ha (BitVec.ofNat 8 (p.length / 256))
    (BitVec.ofNat 8 p.length)
  rw [lengthBytes_append, ← bytesN_two] at hheader
  rw [rawFrameHead, stuff_append, ← List.cons_append, receiveAll_append_next hheader, hr]

/-- A frame leads to the checksum step with its registers filled (R160). -/
theorem receiveAll_rawFrame (c : Byte) :
    ∃ r, receiveAll (rawFrame s.cfg.escaped p c) s = .next (stepChecksum c (s.setRx r)) ∧
      Stored s.rx.buf (BitVec.ofNat 16 p.length) p r := by
  obtain ⟨r, hr, hst⟩ := receiveAll_rawFrameHead ho ha hp
  refine ⟨r, ?_, hst⟩
  have hfull : p.length = (BitVec.ofNat 16 p.length).toNat := by
    rw [BitVec.toNat_ofNat]
    omega
  have hstate : r.state = .readingChecksum := hst.state.trans (if_pos hfull)
  have hbyte := receiveAll_stuff_singleton (s := s.setRx r) ho hst.inFrame hst.esc c
  rw [rawFrame_eq, receiveAll_append_next hr]
  exact hbyte.trans (countLogic_checksum (s := s.setRx r) c hstate)

/-- With the checksum byte of its payload a frame is emitted and dispatched, with any other it is
rejected; the framer hunts for a delimiter again (R168, R169, R170). -/
theorem receiveAll_rawFrame_verdict (hb : s.rx.buf.wf = true) (c : Byte) :
    ∃ r, (r.state = .awaitingDelimiter ∧ r.esc = false ∧ r.buf.wf = true) ∧
      receiveAll (rawFrame s.cfg.escaped p c) s =
        if c = checksum p then .next (dispatch p ((s.setRx r).pushFrame p))
        else .next ((s.setRx r).pushEvt .checksumError) := by
  obtain ⟨r, hr, hst⟩ := receiveAll_rawFrame ho ha hp c
  obtain ⟨hwf, hslice⟩ := hst.buf hb
  have hverdict : checksumOk r.sum c = true ↔ c = checksum p := by
    rw [hst.sum, checksumOk_iff_eq_checksum]
  have hbytes : r.buf.slice r.len.toNat = p := by
    have hlen : r.len.toNat = p.length := by
      rw [hst.len, BitVec.toNat_ofNat]
      omega
    rw [hlen, hslice]
  refine ⟨{ r with state := .awaitingDelimiter }, ⟨rfl, hst.esc, hwf⟩, ?_⟩
  rw [hr]
  split
  case isTrue hc =>
    rw [stepChecksum_good (s := s.setRx r) (hverdict.mpr hc), setRx_rx, hbytes]
    rfl
  case isFalse hc =>
    rw [stepChecksum_bad (s := s.setRx r) (Bool.eq_false_iff.mpr (mt hverdict.mp hc))]
    rfl

end

/-! ## What a payload leads to (R241) -/

/-- The error on `EVT_OUT` that a verified payload leads to, if it does not decode. -/
def decodeErrorOf (c : Cfg) (p : List Byte) : Option ErrorEvent :=
  match decodeFrame c p with
  | .error e => some e
  | .ok _ => none

@[simp] theorem deliver_rx (d : Decoded) (s : State) : (deliver d s).rx = s.rx := by
  obtain ⟨f, -, -, h⟩ | ⟨-, h⟩ := deliver_cases d s <;> rw [h] <;> rfl

@[simp] theorem deliver_frameOut (d : Decoded) (s : State) :
    (deliver d s).frameOut = s.frameOut := by
  obtain ⟨f, -, -, h⟩ | ⟨-, h⟩ := deliver_cases d s <;> rw [h] <;> rfl

@[simp] theorem deliver_evtOut (d : Decoded) (s : State) : (deliver d s).evtOut = s.evtOut := by
  obtain ⟨f, -, -, h⟩ | ⟨-, h⟩ := deliver_cases d s <;> rw [h] <;> rfl

@[simp] theorem dispatch_rx (p : List Byte) (s : State) : (dispatch p s).rx = s.rx := by
  obtain ⟨e, -, h⟩ | ⟨pkt, -, h⟩ := dispatch_cases p s <;> simp [h]

@[simp] theorem dispatch_frameOut (p : List Byte) (s : State) :
    (dispatch p s).frameOut = s.frameOut := by
  obtain ⟨e, -, h⟩ | ⟨pkt, -, h⟩ := dispatch_cases p s <;> simp [h]

theorem dispatch_evtOut (p : List Byte) (s : State) :
    (dispatch p s).evtOut = s.evtOut ++ (decodeErrorOf s.cfg p).toList := by
  obtain ⟨e, hd, h⟩ | ⟨pkt, hd, h⟩ := dispatch_cases p s
  · simp [h, decodeErrorOf, hd, raise]
  · simp [h, decodeErrorOf, hd]

/-! ## Frames among noise (R174) -/

/-- An open connection that hunts for a delimiter. -/
structure Hunting (s : State) : Prop where
  connOpen : s.connOpen = true
  state : s.rx.state = .awaitingDelimiter
  esc : s.rx.esc = false
  buf : s.rx.buf.wf = true

/-- Noise changes nothing (R162). -/
theorem receiveAll_noise {s : State} (ho : s.connOpen = true)
    (ha : s.rx.state = .awaitingDelimiter) {w : List Byte} (hw : 0x7E ∉ w) :
    receiveAll w s = .next s := by
  induction w with
  | nil => rfl
  | cons b w ih =>
    obtain ⟨hb, hrest⟩ := not_or.mp (mt List.mem_cons.mpr hw)
    have hbyte : receive b s = .next s := by
      rw [receive_awaiting b ho ha, stepAwait_noise (Ne.symm hb)]
    rw [receiveAll_cons_next hbyte, ih hrest]

/-- One wrapped payload behind noise. -/
theorem receiveAll_noise_wrap {s : State} (hs : Hunting s) {noise p : List Byte}
    (hnoise : 0x7E ∉ noise) (hp : p.length ≤ 65535) :
    ∃ t, receiveAll (noise ++ wrap s.cfg.escaped p) s = .next t ∧ Hunting t ∧
      t.frameOut = s.frameOut ++ [p] ∧
      t.evtOut = s.evtOut ++ (decodeErrorOf s.cfg p).toList := by
  obtain ⟨r, ⟨hstate, hesc, hbuf⟩, hr⟩ :=
    receiveAll_rawFrame_verdict hs.connOpen hs.state hp hs.buf (checksum p)
  rw [if_pos rfl] at hr
  refine ⟨dispatch p ((s.setRx r).pushFrame p), ?_, ⟨?_, ?_, ?_, ?_⟩, dispatch_frameOut _ _,
    dispatch_evtOut _ _⟩
  · rw [receiveAll_append_next (receiveAll_noise hs.connOpen hs.state hnoise)]
    exact hr
  · exact (dispatch_keeps p _).connOpen.trans hs.connOpen
  · rw [dispatch_rx]
    exact hstate
  · rw [dispatch_rx]
    exact hesc
  · rw [dispatch_rx]
    exact hbuf

/-- Any number of wrapped payloads, each behind noise. -/
theorem receiveAll_frames {s : State} (hs : Hunting s) {frames : List (List Byte × List Byte)}
    (hf : ∀ f ∈ frames, 0x7E ∉ f.1 ∧ f.2.length ≤ 65535) :
    ∃ t, receiveAll (frames.flatMap fun f => f.1 ++ wrap s.cfg.escaped f.2) s = .next t ∧
      Hunting t ∧ t.frameOut = s.frameOut ++ frames.map (·.2) ∧
      t.evtOut = s.evtOut ++ frames.filterMap (fun f => decodeErrorOf s.cfg f.2) := by
  induction frames generalizing s with
  | nil => exact ⟨s, rfl, hs, by simp, by simp⟩
  | cons f frames ih =>
    obtain ⟨⟨hnoise, hp⟩, hrest⟩ := List.forall_mem_cons.mp hf
    obtain ⟨t, ht, hunt, hframe, hevt⟩ := receiveAll_noise_wrap hs hnoise hp
    obtain ⟨u, hu, hunu, hframes, hevts⟩ := ih hunt hrest
    rw [(receiveAll_keeps ht).cfg] at hu hevts
    refine ⟨u, ?_, hunu, ?_, ?_⟩
    · rw [List.flatMap_cons, receiveAll_append_next ht, hu]
    · rw [hframes, hframe, List.map_cons, List.append_assoc, List.singleton_append]
    · rw [hevts, hevt, List.append_assoc, List.filterMap_cons]
      cases decodeErrorOf s.cfg f.2 <;> rfl

/-! ## A frame that has not ended -/

/-- How much the receive path has emitted on `FRAME_OUT` and `EVT_OUT`. -/
def emitted (s : State) : Nat := s.frameOut.length + s.evtOut.length

theorem RxEffect.setRx_or_emitted {s t : State} (h : RxEffect s t) :
    (∃ r, t = s.setRx r) ∨ emitted s < emitted t := by
  cases h with
  | moved r => exact .inl ⟨r, rfl⟩
  | rejected r =>
    refine .inr ?_
    simp only [emitted, pushEvt_frameOut, pushEvt_evtOut, setRx_frameOut, setRx_evtOut,
      List.length_append, List.length_singleton]
    omega
  | dispatched r p =>
    refine .inr ?_
    simp only [emitted, dispatch_frameOut, dispatch_evtOut, pushFrame_frameOut, pushFrame_evtOut,
      setRx_frameOut, setRx_evtOut, List.length_append, List.length_singleton]
    omega

/-- A read that emits nothing moves the RX registers alone. -/
theorem receiveAll_setRx_or_emitted {w : List Byte} {s t : State}
    (h : receiveAll w s = .next t) : (∃ r, t = s.setRx r) ∨ emitted s < emitted t := by
  refine receiveAll_rel (R := fun s t => (∃ r, t = s.setRx r) ∨ emitted s < emitted t)
    (fun s => .inl ⟨s.rx, rfl⟩) ?_ (fun _ _ => RxEffect.setRx_or_emitted) h
  rintro s t u (⟨r, rfl⟩ | hst) (⟨r', rfl⟩ | htu)
  · exact .inl ⟨r', rfl⟩
  · exact .inr htu
  · exact .inr hst
  · exact .inr (hst.trans htu)

/-- If a whole read moves the RX registers alone, so does any first part of it. -/
theorem receiveAll_firstPart {v w : List Byte} {s : State} {r : Rx}
    (h : receiveAll (v ++ w) s = .next (s.setRx r)) : ∃ r', receiveAll v s = .next (s.setRx r') := by
  obtain ⟨t, hv, hw⟩ := receiveAll_append_eq_next.mp h
  obtain ⟨r', rfl⟩ | hlt := receiveAll_setRx_or_emitted hv
  · exact ⟨r', hv⟩
  · have hend : emitted (s.setRx r) = emitted s := rfl
    obtain ⟨r', hr'⟩ | hlt' := receiveAll_setRx_or_emitted hw
    · have hmid : emitted (s.setRx r) = emitted t := by
        rw [hr']
        rfl
      omega
    · omega

/-- All raw bytes of a frame but the last move the RX registers alone. -/
theorem receiveAll_rawFrame_dropLast {s : State} {p : List Byte} (ho : s.connOpen = true)
    (ha : s.rx.state = .awaitingDelimiter) (hp : p.length ≤ 65535) (c : Byte) :
    ∃ r, receiveAll (rawFrame s.cfg.escaped p c).dropLast s = .next (s.setRx r) := by
  obtain ⟨r, hr, hst⟩ := receiveAll_rawFrameHead ho ha hp
  obtain ⟨r', hr'⟩ := receiveAll_stuff_dropLast (s := s.setRx r) ho hst.inFrame hst.esc c
  have hne : stuff s.cfg.escaped [c] ≠ [] := by
    obtain ⟨h, -⟩ | ⟨-, h⟩ := stuff_singleton_cases s.cfg.escaped c <;> rw [h] <;> nofun
  refine ⟨r', ?_⟩
  rw [rawFrame_eq, List.dropLast_append_of_ne_nil hne, receiveAll_append_next hr]
  exact hr'

/-! ## The obligations -/

/-- Settles O22, by the verdict on the checksum byte and then by whether the payload decodes. -/
theorem wholeFrameIsReceived : Obligations.WholeFrameIsReceived := by
  intro s p c ho ha hb hp
  obtain ⟨r, ⟨hstate, -, -⟩, hr⟩ := receiveAll_rawFrame_verdict ho ha hp hb c
  have hexec : exec (.frame p c) s = receiveAll (rawFrame s.cfg.escaped p c) s := rfl
  refine ⟨r, hstate, fun hc => ?_, fun hc => ⟨fun e he => ?_, fun pkt hpkt => ?_⟩⟩
  · rw [hexec, hr, if_neg hc]
    rfl
  · rw [hexec, hr, if_pos hc, dispatch_error (s := (s.setRx r).pushFrame p) he]
    rfl
  · rw [hexec, hr, if_pos hc, dispatch_ok (s := (s.setRx r).pushFrame p) hpkt, exec_deliver]
    rfl

/-- Settles O21: frame by frame behind its noise; and a wrapped payload without its last byte emits
nothing, so neither does any part it begins with. -/
theorem framingRoundTrip : Obligations.FramingRoundTrip := by
  constructor
  · intro s frames tail ho ha hx hb hf htail
    obtain ⟨t, ht, hunt, hframes, hevts⟩ := receiveAll_frames ⟨ho, ha, hx, hb⟩ hf
    have keeps := receiveAll_keeps ht
    refine ⟨t, ?_, hframes, hevts, hunt.state, hunt.esc, hunt.buf, keeps.cfg, keeps.connOpen,
      keeps.txOut, keeps.pktOut, keeps.reqOut, keeps.codecOut, keeps.input⟩
    rw [feed_eq_receiveAll, receiveAll_append_next ht,
      receiveAll_noise hunt.connOpen hunt.state htail]
  · intro s p k ho ha hp hk
    obtain ⟨r, hr⟩ := receiveAll_rawFrame_dropLast ho ha hp (checksum p)
    have htake : (wrap s.cfg.escaped p).take k = (wrap s.cfg.escaped p).dropLast.take k := by
      rw [List.dropLast_eq_take, List.take_take, Nat.min_eq_left (by omega)]
    have hcut := List.take_append_drop k (wrap s.cfg.escaped p).dropLast
    change receiveAll (wrap s.cfg.escaped p).dropLast s = _ at hr
    rw [← hcut] at hr
    rw [feed_eq_receiveAll, htake]
    exact receiveAll_firstPart hr

end Sys2Proof.Machine
end

section
/-! SUPPORT. The decoder and the encoder against each other: frames, IO sample blocks, payloads and raw
bytes. -/

namespace Sys2Proof.Machine

/-! ## Whole frames (R90, R94) -/

theorem be_lt_two (s : List Byte) : be s 0 2 < 65536 := by
  have hlt := beOf_lt ((s.drop 0).take 2)
  have hle : (256 : Nat) ^ ((s.drop 0).take 2).length ≤ 256 ^ 2 :=
    Nat.pow_le_pow_right (by decide) (List.length_take_le _ _)
  exact hlt.trans_le hle

/-- What a receiver reads behind the delimiter of a frame, in either mode. -/
theorem unstuff_stuff (e : Bool) (body : List Byte) :
    (if e then (unescapeFrom false (stuff e body)).1 else stuff e body) = body := by
  cases e with
  | false => rfl
  | true => exact congrArg Prod.fst (unescapeFrom_escape body)

theorem parseFrame_rawFrame (e : Bool) {p : List Byte} (k : Byte) (hp : p.length ≤ 65535) :
    parseFrame e (rawFrame e p k) = some (p, k) := by
  have hcut : frameBody p k = bytesN 2 p.length ++ p ++ [k] := rfl
  have hlen : be (frameBody p k) 0 2 = p.length := by
    rw [be, hcut, List.drop_zero, List.append_assoc, List.take_left' (bytesN_length 2 _),
      beOf_bytesN]
    omega
  have hpayload : bytesAt (frameBody p k) 2 p.length = p :=
    bytesAt_of_eq_append hcut (bytesN_length 2 _) rfl
  have hsum : byteAt (frameBody p k) (2 + p.length) = k :=
    byteAt_of_eq_append (l := []) hcut (by simp)
  have hread : (if e then (unescapeFrom false ((rawFrame e p k).drop 1)).1
      else (rawFrame e p k).drop 1) = frameBody p k := unstuff_stuff e _
  unfold parseFrame
  simp only [hread, hlen, hpayload, hsum, if_true]

/-- The payload of a read that parses fits the length field (R91). -/
theorem parseFrame_length {e : Bool} {w : List Byte} {r : List Byte × Byte}
    (h : parseFrame e w = some r) : r.1.length ≤ 65535 := by
  obtain ⟨-, hr⟩ := Option.ite_none_right_eq_some.mp h
  rw [← Option.some.inj hr]
  exact (List.length_take_le _ _).trans (Nat.le_of_lt_succ (be_lt_two _))

/-! ## IO sample blocks (R122) -/

theorem blockOk_iff (c : Cfg) (t : IoType) (k : IosBlock) : blockOk c t k = true ↔
    k.nsamples.isSome = nsampPresent c t ∧
    k.digitalValues.isSome = decide (k.digitalMask ≠ 0) ∧
    k.analogValues.length = analogCount k.analogMask ∧
    k.power.isSome = powerPresent k.analogMask ∧
    5 ≤ blockNeed (nsampPresent c t) k.digitalMask k.analogMask + k.excess.length := by
  simp [blockOk, and_assoc]

theorem flatMap_bytes2_length (vs : List U16) : (vs.flatMap bytes2).length = 2 * vs.length := by
  induction vs with
  | nil => rfl
  | cons v vs ih =>
    rw [List.flatMap_cons, List.length_append, bytes2_length, ih, List.length_cons]
    omega

/-! Reading along a sequence: what is left from an offset on, and the field that stands there. -/

section
variable {s a l : List Byte} {i : Nat}

theorem drop_of_drop_eq_append (h : s.drop i = a ++ l) {j : Nat} (hj : j = i + a.length) :
    s.drop j = l := by
  rw [hj, ← List.drop_drop, h, List.drop_left]

theorem byteAt_of_drop {x : Byte} (h : s.drop i = x :: l) : byteAt s i = x := by
  rw [byteAt, List.getD_eq_getElem?_getD, ← List.head?_drop, h]
  rfl

theorem u16At_of_drop {v : U16} (h : s.drop i = bytes2 v ++ l) : u16At s i = v := by
  rw [u16At, be, h, List.take_left' (bytes2_length v), ofNat_beOf_bytes2]

/-- A row of 16-bit values, read one by one. -/
theorem map_u16At_of_drop {vs : List U16} (h : s.drop i = vs.flatMap bytes2 ++ l) :
    (List.range vs.length).map (fun k => u16At s (i + 2 * k)) = vs := by
  induction vs generalizing i with
  | nil => rfl
  | cons v vs ih =>
    rw [List.flatMap_cons, List.append_assoc] at h
    have hrest := ih (i := i + 2) (drop_of_drop_eq_append h (by simp))
    have hshift : (fun k => u16At s (i + 2 * k)) ∘ Nat.succ = fun k => u16At s (i + 2 + 2 * k) := by
      funext k
      exact congrArg (u16At s) (by rw [Nat.succ_eq_add_one]; omega)
    rw [List.length_cons, List.range_succ_eq_map, List.map_cons, List.map_map, hshift, hrest]
    exact congrArg (· :: vs) (u16At_of_drop h)

end

/-- A row of 16-bit values, written back behind what was read of it. -/
theorem flatMap_u16At_append_drop {s : List Byte} {i n j : Nat} (h : i + 2 * n ≤ s.length)
    (hj : j = i + 2 * n) :
    ((List.range n).map fun k => u16At s (i + 2 * k)).flatMap bytes2 ++ s.drop j = s.drop i := by
  subst hj
  induction n with
  | zero => rfl
  | succ n ih =>
    rw [List.range_succ, List.map_append, List.flatMap_append, List.append_assoc,
      ← ih (by omega)]
    simp (disch := omega)

/-- An optional field that is present by a flag, as bytes. -/
theorem toList_flatMap_bytes2_length {o : Option U16} {b : Bool} (h : o.isSome = b) :
    (o.toList.flatMap bytes2).length = if b then 2 else 0 := by
  subst h
  cases o <;> rfl

/-- An optional field that is present by a flag is what stands at its offset. -/
theorem optional_u16At_of_drop {s l : List Byte} {i : Nat} {o : Option U16} {b : Bool}
    (hb : o.isSome = b) (h : s.drop i = o.toList.flatMap bytes2 ++ l) :
    (if b then some (u16At s i) else none) = o := by
  subst hb
  cases o with
  | none => rfl
  | some v => exact congrArg some (u16At_of_drop (l := l) (by rw [h]; simp))

/-- An optional field that was read by a flag, written back. -/
theorem optional_u16At_append_drop {s : List Byte} {i j : Nat} {b : Prop} [Decidable b]
    (hj : j = i + if b then 2 else 0) (h : j ≤ s.length) :
    (if b then some (u16At s i) else none).toList.flatMap bytes2 ++ s.drop j = s.drop i := by
  by_cases hb : b
  · rw [if_pos hb] at hj ⊢
    simp (disch := omega)
  · rw [if_neg hb] at hj ⊢
    rw [hj]
    rfl

section
variable {c : Cfg} {t : IoType} {k : IosBlock} (h : blockOk c t k = true)
include h

theorem blockOk_nsamples_length : k.nsamples.toList.length = nsampSize (nsampPresent c t) := by
  rw [nsampSize, ← ((blockOk_iff c t k).mp h).1]
  cases k.nsamples <;> rfl

theorem blockOk_digital_length :
    (k.digitalValues.toList.flatMap bytes2).length = digitalSize k.digitalMask := by
  obtain ⟨-, hd, -⟩ := (blockOk_iff c t k).mp h
  simp only [toList_flatMap_bytes2_length hd, digitalSize, decide_eq_true_eq]

/-- A well-formed block has the bytes its masks call for, and its excess. -/
theorem blockBytes_length : (blockBytes k).length =
    blockNeed (nsampPresent c t) k.digitalMask k.analogMask + k.excess.length := by
  obtain ⟨-, -, ha, hp, -⟩ := (blockOk_iff c t k).mp h
  simp only [blockBytes, blockNeed, List.length_append, List.length_singleton, bytes2_length,
    flatMap_bytes2_length k.analogValues, blockOk_digital_length h, blockOk_nsamples_length h,
    toList_flatMap_bytes2_length hp, ha]

/-- The decoder reads back the fields of a well-formed block. -/
theorem parseBlock_blockBytes : parseBlock (nsampPresent c t) (blockBytes k) = some k := by
  have hlen := blockBytes_length h
  have hns := blockOk_nsamples_length h
  have hdl := blockOk_digital_length h
  obtain ⟨hn, hd, ha, hp, h5⟩ := (blockOk_iff c t k).mp h
  generalize hs : blockBytes k = s at hlen
  generalize hpres : nsampPresent c t = present at *
  have d0 : s.drop 0 = k.nsamples.toList ++ (bytes2 k.digitalMask ++ (k.analogMask ::
      (k.digitalValues.toList.flatMap bytes2 ++ (k.analogValues.flatMap bytes2 ++
        (k.power.toList.flatMap bytes2 ++ k.excess))))) := by
    rw [List.drop_zero, ← hs, blockBytes]
    simp only [List.append_assoc, List.cons_append, List.nil_append]
  have d1 := drop_of_drop_eq_append (j := nsampSize present) d0 (by omega)
  have d2 := drop_of_drop_eq_append (j := nsampSize present + 2) d1 (by simp)
  have d3 := drop_of_drop_eq_append (a := [_]) (j := nsampSize present + 3) d2 rfl
  have d4 := drop_of_drop_eq_append (j := nsampSize present + 3 + digitalSize k.digitalMask) d3
    (by omega)
  have d5 := drop_of_drop_eq_append (j := nsampSize present + 3 + digitalSize k.digitalMask +
    2 * analogCount k.analogMask) d4 (by rw [flatMap_bytes2_length, ha])
  have d6 := drop_of_drop_eq_append (j := blockNeed present k.digitalMask k.analogMask) d5
    (by rw [toList_flatMap_bytes2_length hp, blockNeed])
  have hdm : u16At s (nsampSize present) = k.digitalMask := u16At_of_drop d1
  have ham : byteAt s (nsampSize present + 2) = k.analogMask := byteAt_of_drop d2
  have hnsv : (if present then some (byteAt s 0) else none) = k.nsamples := by
    subst hn
    cases hk : k.nsamples with
    | none => rfl
    | some x =>
      rw [hk] at d0
      exact congrArg some (byteAt_of_drop d0)
  have hdv : (if k.digitalMask ≠ 0 then some (u16At s (nsampSize present + 3)) else none) =
      k.digitalValues := by
    simpa only [decide_eq_true_eq] using optional_u16At_of_drop hd d3
  have hav := map_u16At_of_drop d4
  rw [ha] at hav
  have hpw := optional_u16At_of_drop hp d5
  unfold parseBlock
  simp only [hdm, ham, hnsv, hdv, hav, hpw, d6]
  rw [if_neg (by omega), if_neg (by omega)]

end

/-- What the decoder reads of a block, it can write back; and it is well formed (R122, R261). -/
theorem blockBytes_of_parseBlock {c : Cfg} {t : IoType} {b : List Byte} {k : IosBlock}
    (h : parseBlock (nsampPresent c t) b = some k) : blockBytes k = b ∧ blockOk c t k = true := by
  rw [blockOk_iff]
  generalize nsampPresent c t = present at *
  obtain ⟨h5, hneed, rfl⟩ : ¬ b.length < 5 ∧
      ¬ b.length < blockNeed present (u16At b (nsampSize present))
        (byteAt b (nsampSize present + 2)) ∧ _ := by
    simpa only [parseBlock, Option.ite_none_left_eq_some, Option.some.injEq] using h
  generalize hdm : u16At b (nsampSize present) = dm at hneed
  generalize ham : byteAt b (nsampSize present + 2) = am at hneed
  have hsize : nsampSize present + 3 + digitalSize dm =
      nsampSize present + 3 + (if dm ≠ 0 then 2 else 0) := rfl
  have hsum : blockNeed present dm am = nsampSize present + 3 + digitalSize dm +
      2 * analogCount am + (if powerPresent am = true then 2 else 0) := rfl
  constructor
  · have hns : (if present = true then some (byteAt b 0) else none).toList ++
        b.drop (nsampSize present) = b := by
      cases present with
      | false => rfl
      | true => exact byteAt_cons_drop (s := b) (by omega) rfl
    simp only [blockBytes, List.append_assoc, List.cons_append, List.nil_append]
    rw [optional_u16At_append_drop hsum (by omega),
      flatMap_u16At_append_drop (by omega) rfl,
      optional_u16At_append_drop hsize (by omega), ← ham, byteAt_cons_drop (by omega) rfl,
      ← hdm, bytes2_u16At_append_drop (by omega) rfl, hns]
  · refine ⟨?_, ?_, by simp, ?_, ?_⟩
    · cases present <;> rfl
    · exact Bool.eq_iff_iff.mpr (Option.isSome_ite.trans decide_eq_true_iff.symm)
    · exact Bool.eq_iff_iff.mpr Option.isSome_ite
    · change 5 ≤ blockNeed present dm am + (b.drop (blockNeed present dm am)).length
      rw [List.length_drop]
      omega

/-! The masks of a block stand among its first five bytes, so cutting it behind them leaves them. -/

theorem byteAt_take {s : List Byte} {i n : Nat} (h : i < n) : byteAt (s.take n) i = byteAt s i := by
  rw [byteAt, byteAt, List.getD_eq_getElem?_getD, List.getD_eq_getElem?_getD,
    List.getElem?_take_of_lt h]

theorem u16At_take {s : List Byte} {i n : Nat} (h : i + 2 ≤ n) : u16At (s.take n) i = u16At s i := by
  rw [u16At, u16At, be, be, List.drop_take, List.take_take, Nat.min_eq_left (by omega)]

theorem parseBlock_masks {present : Bool} {b : List Byte} {k : IosBlock}
    (h : parseBlock present b = some k) :
    k.digitalMask = u16At b (nsampSize present) ∧ k.analogMask = byteAt b (nsampSize present + 2) := by
  obtain ⟨-, -, rfl⟩ : ¬ b.length < 5 ∧ ¬ b.length < blockNeed present (u16At b (nsampSize present))
      (byteAt b (nsampSize present + 2)) ∧ _ := by
    simpa only [parseBlock, Option.ite_none_left_eq_some, Option.some.injEq] using h
  exact ⟨rfl, rfl⟩

/-- A block without the last byte it needs is no sample (R261, R269). -/
theorem parseBlock_take {present : Bool} {b : List Byte} {k : IosBlock}
    (h : parseBlock present b = some k) {n : Nat}
    (hn : n < 5 ∨ n < blockNeed present k.digitalMask k.analogMask) :
    parseBlock present (b.take n) = none := by
  obtain ⟨hdm, ham⟩ := parseBlock_masks h
  have hle : (b.take n).length ≤ n := List.length_take_le n b
  have hs : nsampSize present ≤ 1 := by cases present <;> decide
  by_cases h5 : (b.take n).length < 5
  · exact if_pos h5
  · have hneed : (b.take n).length < blockNeed present (u16At (b.take n) (nsampSize present))
        (byteAt (b.take n) (nsampSize present + 2)) := by
      rw [u16At_take (by omega), byteAt_take (by omega), ← hdm, ← ham]
      omega
    exact (if_neg h5).trans (if_pos hneed)

section
variable {x : Ctx} {t : IoType} {b : List Byte}

theorem decode_block {k : IosBlock} (h : parseBlock (nsampPresent x.cfg t) b = some k) :
    decode x (.block t b) = .ok (.iosBlock t k) := by
  rw [decode, h]

theorem decode_noSample (h : parseBlock (nsampPresent x.cfg t) b = none) :
    decode x (.block t b) = .error .noSample := by
  rw [decode, h]

end

/-! ## Payloads (R237) -/

theorem trailingOk_ne_empty {n : Nat} {t : Option (List Byte)} (h : trailingOk n t = true) :
    t ≠ some [] := by
  rintro rfl
  cases h

/-- What a decode can produce, a payload can carry. -/
theorem fitsLayout_of_packetOk {p : Packet} (h : packetOk p = true) : FitsLayout p := by
  cases p with
  | txStatus | modemStatus | transmitStatus => exact ⟨nofun, nofun⟩
  | deviceRequest f =>
    obtain ⟨hg, ht⟩ := Bool.and_eq_true_iff.mp h
    refine ⟨trailingOk_ne_empty ht, fun s hs => ?_⟩
    rw [List.mem_singleton.mp hs]
    exact of_decide_eq_true hg
  | sendDataRequest f =>
    obtain ⟨hgk, ht⟩ := Bool.and_eq_true_iff.mp h
    obtain ⟨hg, hk⟩ := Bool.and_eq_true_iff.mp hgk
    refine ⟨trailingOk_ne_empty ht, fun s hs => ?_⟩
    obtain rfl | rfl := List.mem_pair.mp hs
    · exact of_decide_eq_true hg
    · exact of_decide_eq_true hk
  | _ => exact ⟨trailingOk_ne_empty h, nofun⟩

section
variable {x : Ctx} {w : List Byte}

theorem decode_payload {p : Packet} (h : decodeFrame x.cfg w = .ok p) :
    decode x (.payload w) = .ok (packetInstr p) := by
  rw [decode, h]

theorem decode_payload_error {e : ErrorEvent} (h : decodeFrame x.cfg w = .error e) :
    decode x (.payload w) = .error (.decodeError e) := by
  rw [decode, h]

end

/-- The payload of a packet that a decode can produce decodes to the packet's row. -/
theorem decode_payloadOf {x : Ctx} {p : Packet} (hc : x.cfg.valid = true)
    (hp : packetOk p = true) : decode x (.payload (payloadOf x.cfg p)) = .ok (packetInstr p) :=
  decode_payload (decodeFrame_payloadOf (ftLookup_frameCode hc _) (fitsLayout_of_packetOk hp))

/-! ## Raw bytes, escape pairs and events -/

/-- The class of a byte has that byte as its item, and is well formed. -/
theorem encode_classify (x : Ctx) (b : Byte) :
    encode x.cfg (classify x b) = some (.rxIn b) ∧ wellFormed x.cfg (classify x b) = true := by
  by_cases hs : x.rxState = .awaitingDelimiter
  · rw [classify_awaiting hs]
    split
    case isTrue hb =>
      subst hb
      exact ⟨rfl, rfl⟩
    case isFalse hb => exact ⟨rfl, bne_iff_ne.mpr hb⟩
  · rw [classify_inFrame hs]
    split
    · split
      · exact ⟨rfl, rfl⟩
      · split
        case isTrue hb =>
          subst hb
          exact ⟨rfl, rfl⟩
        case isFalse => exact ⟨rfl, rfl⟩
    · exact ⟨rfl, rfl⟩

/-- An event is the item of its operation. -/
theorem encode_eventInstr (c : Cfg) (e : Event) : encode c (eventInstr e) = some (.event e) := by
  cases e <;> rfl

/-! ## The frame-type table as the spec writes it (R100) -/

theorem frameCode_of_ftLookup {c : Cfg} {b : Byte} {t : FrameType} (h : ftLookup c b = some t) :
    frameCode c t = b :=
  eq_of_beq (List.find?_some (p := fun t => frameCode c t == b) h)

theorem mem_allFrameTypes (t : FrameType) : t ∈ allFrameTypes := by
  cases t <;> decide

/-! ## The obligations -/

/-- Settles O1, word by word. -/
theorem wordsOfTheTablesDecode : Obligations.WordsOfTheTablesDecode := by
  refine ⟨by decide, by decide, by decide, by decide, by decide, by decide, by decide, by decide,
    by decide, by decide⟩

/-- Settles O7: a row is found by its code, and what is found has the code it was found by. -/
theorem frameTypeTableIsTheSpecs : Obligations.FrameTypeTableIsTheSpecs := by
  refine ⟨fun c hc b t => ⟨frameCode_of_ftLookup, ?_⟩, fun p => ?_, fun c => rfl, mem_allFrameTypes⟩
  · rintro rfl
    exact ftLookup_frameCode hc t
  · cases p <;> rfl

/-- Settles O4, layer by layer: the class of a raw byte, a whole frame, the payload of a packet, a
sample block, and the events, which carry their operation. -/
theorem encodedInstructionDecodesBack : Obligations.EncodedInstructionDecodesBack := by
  intro x i it hc hwf hctx he
  cases i with
  | rawDelimiter =>
    cases he
    rw [decode_rxIn, classify_awaiting (eq_of_beq hctx), if_pos rfl]
  | rawNoise b =>
    cases he
    rw [decode_rxIn, classify_awaiting (eq_of_beq hctx), if_neg (bne_iff_ne.mp hwf)]
  | rawEscapeMarker =>
    cases he
    simp only [classContext, Bool.and_eq_true, bne_iff_ne, Bool.not_eq_true'] at hctx
    obtain ⟨⟨hn, he⟩, hx⟩ := hctx
    rw [decode_rxIn, classify_marker hn he hx]
  | rawEscapedSecond b =>
    cases he
    simp only [classContext, Bool.and_eq_true, bne_iff_ne] at hctx
    obtain ⟨⟨hn, he⟩, hx⟩ := hctx
    rw [decode_rxIn, classify_second hn he hx]
  | rawLiteral b =>
    cases he
    simp only [classContext, Bool.and_eq_true, Bool.or_eq_true, bne_iff_ne,
      Bool.not_eq_true'] at hctx
    obtain ⟨hn, hmode⟩ := hctx
    rw [decode_rxIn]
    cases he : x.cfg.escaped with
    | false => rw [classify_plain hn he]
    | true =>
      obtain hplain | ⟨hx, hb⟩ := hmode
      · cases hplain.symm.trans he
      · rw [classify_literal hn he hx hb]
  | frame p k =>
    cases he
    exact decode_frame (parseFrame_rawFrame _ k (of_decide_eq_true hwf))
  | iosBlock t k =>
    cases he
    exact decode_block (parseBlock_blockBytes hwf)
  | tx64 f | tx16 f | atCommand f | atCommandQueue f | transmitRequest f | explicitAddressing f
  | remoteAtCommand f | rx64 f | rx16 f | rx64Io f | rx16Io f | atCommandResponse f | txStatus f
  | modemStatus f | transmitStatus f | receivePacket f | explicitRxIndicator f
  | ioDataSampleRx f | remoteAtCommandResponse f | deviceRequest f | sendDataRequest f =>
    cases he
    exact decode_payloadOf hc hwf
  | deliver _ | checksumError | nullPayload _ | incomplete _ _ _ | wrongFrameType _ _
  | unknownFrameType _ _ | outOfRange _ _ _ _ _ | timeout _ | connectionClosed _
  | noPendingRequest | frameIdInUse _ | operationNotSupported => cases he
  | _ =>
    cases he
    rfl

/-- Settles O5, layer by layer: the decoder only accepts what it can write back. -/
theorem decodedItemEncodesBack : Obligations.DecodedItemEncodesBack := by
  intro x it i hd
  cases it with
  | rxIn b =>
    cases hd
    exact encode_classify x b
  | rxChunk w =>
    cases hp : parseFrame x.cfg.escaped w with
    | none => cases (decode_notOneFrame hp).symm.trans hd
    | some r =>
      cases (decode_frame hp).symm.trans hd
      exact ⟨congrArg (fun w => some (Item.rxChunk w)) (rawFrame_of_parseFrame hp),
        decide_eq_true (parseFrame_length hp)⟩
  | block t b =>
    cases hp : parseBlock (nsampPresent x.cfg t) b with
    | none => cases (decode_noSample hp).symm.trans hd
    | some k =>
      cases (decode_block hp).symm.trans hd
      obtain ⟨hb, hok⟩ := blockBytes_of_parseBlock hp
      exact ⟨congrArg (fun b => some (Item.block t b)) hb, hok⟩
  | stuffed b =>
    cases hd
    rintro (rfl | rfl | rfl | rfl) <;> rfl
  | event e =>
    cases hd
    exact encode_eventInstr x.cfg e
  | payload p => trivial

/-- Settles O37: a row's bytes decode to the row; longer bytes are those of the row with more excess;
shorter ones lack a byte that the masks call for. -/
theorem iosBlockRowAndLength : Obligations.IosBlockRowAndLength := by
  constructor
  · intro t k s hk
    have hdecode : iosDecode s.cfg t (blockBytes k) = some (blockSample k) := by
      rw [iosDecode, parseBlock_blockBytes hk]
      rfl
    refine ⟨blockSample k, rfl, ?_, rfl, rfl, rfl⟩
    rw [exec_iosDecode, Option.bind_some, hdecode]
    rfl
  · intro c t b k hk
    obtain ⟨blk, hparse, rfl⟩ := Option.map_eq_some_iff.mp hk
    obtain ⟨rfl, hok⟩ := blockBytes_of_parseBlock hparse
    refine ⟨fun extra => ?_, fun n hn => ?_⟩
    · let longer : IosBlock := { blk with excess := blk.excess ++ extra }
      have hbytes : blockBytes blk ++ extra = blockBytes longer := List.append_assoc _ _ _
      have hlonger : blockOk c t longer = true := by
        obtain ⟨hn, hd, ha, hp, h5⟩ := (blockOk_iff c t blk).mp hok
        refine (blockOk_iff c t longer).mpr ⟨hn, hd, ha, hp, h5.trans ?_⟩
        exact Nat.add_le_add_left (List.length_append ▸ Nat.le_add_right _ _) _
      rw [iosDecode, hbytes, parseBlock_blockBytes hlonger]
      rfl
    · rw [iosDecode, parseBlock_take hparse hn]
      rfl

end Sys2Proof.Machine
end

section
/-! SUPPORT. The layouts with later or embedded bytes, the field that an `OutOfRange` names, and the
remaining operations on `CODEC` and `TX_REQ`. -/

namespace Sys2Proof.Machine

/-! ## What a codec client is answered -/

theorem decodesTo_of_decodeFrame {c : Cfg} {w : List Byte} {p : Packet} {bc : Bool}
    {io : Option IoSample} (h : decodeFrame c w = .ok p) (hbc : isBroadcast c p = bc)
    (hio : packetIoSample c p = io) : DecodesTo c w p bc io := by
  rintro s rfl
  rw [exec_decodeFrame, h, ← hbc, ← hio]
  rfl

theorem decodeFails_of_decodeFrame {c : Cfg} {w : List Byte} {e : ErrorEvent}
    (h : decodeFrame c w = .error e) : DecodeFails c w e := by
  rintro s rfl
  rw [exec_decodeFrame, h]
  rfl

theorem encodesTo_of_inRange (c : Cfg) {p : Packet} (h : inRange p = true) :
    EncodesTo c p (encodeBody p) := by
  intro s _
  rw [exec_encode_inRange h]
  rfl

theorem exec_encode_rangeError {p : Packet} {e : ErrorEvent} (h : rangeCheck p = some e)
    (s : State) : exec (.encode p) s = .next (s.pushCodec (.failed e)) := by
  change execEncode p s = _
  rw [execEncode, h]
  rfl

theorem exec_iosPower (k : IoSample) (s : State) : exec (.iosPower k) s =
    .next (s.pushCodec (k.power.elim (.failed .operationNotSupported) .power)) := by
  change execIosPower k s = _
  rw [execIosPower]
  cases k.power <;> rfl

/-! ## Status rows with later bytes (R213) -/

theorem u16At_pair (h l : Byte) (w : List Byte) : u16At (h :: l :: w) 0 = h ++ l := by
  have hbytes : h :: l :: w = bytes2 (h ++ l) ++ w := by rw [bytes2_append]; rfl
  rw [hbytes, u16At_zero]

/-- A payload of a row with a fixed code that has its fixed fields is read by the row's layout. -/
theorem decodeFrame_fixed (c : Cfg) {t : FrameType} {b : Byte} {w : List Byte}
    (hd : t ≠ .deviceRequest) (hs : t ≠ .sendDataRequest) (hb : b = frameCode c t)
    (hmin : minLength t ≤ w.length + 1) : decodeFrame c (b :: w) = decodeBody t (b :: w) := by
  rw [decodeFrame_known c (hb ▸ ftLookup_fixed c hd hs), decodeAs_passed c hmin hb]

/-- In a valid configuration that holds of every row. -/
theorem decodeFrame_row {c : Cfg} (hc : c.valid = true) {t : FrameType} {b : Byte} {w : List Byte}
    (hb : b = frameCode c t) (hmin : minLength t ≤ w.length + 1) :
    decodeFrame c (b :: w) = decodeBody t (b :: w) := by
  rw [decodeFrame_known c (hb ▸ ftLookup_frameCode hc t), decodeAs_passed c hmin hb]

/-! ## Embedded lengths (R233 to R236) -/

section
variable {s : List Byte} {n m k : Nat} (hlen : s.length = k)
include hlen

/-- A length byte that says more than the payload holds (R235). -/
theorem decodeDeviceRequest_short (hn : (byteAt s 4).toNat = n) (h : k < 5 + n) :
    decodeBody .deviceRequest s = .error (.incomplete (5 + n) k) := by
  subst hlen hn
  exact congrArg (Except.map Packet.deviceRequest) (if_pos h)

/-- A path length that says more than the payload holds (R236). -/
theorem decodeSendDataRequest_shortPath (hn : (byteAt s 2).toNat = n) (h : k < 6 + n) :
    decodeBody .sendDataRequest s = .error (.incomplete (6 + n) k) := by
  subst hlen hn
  exact congrArg (Except.map Packet.sendDataRequest) (if_pos h)

/-- A content-type length that says more than the payload holds (R236). -/
theorem decodeSendDataRequest_shortType (hn : (byteAt s 2).toNat = n)
    (hm : (byteAt s (3 + n)).toNat = m) (hpath : 6 + n ≤ k) (h : k < 6 + n + m) :
    decodeBody .sendDataRequest s = .error (.incomplete (6 + n + m) k) := by
  subst hlen hn hm
  exact congrArg (Except.map Packet.sendDataRequest)
    ((if_neg (Nat.not_lt.mpr hpath)).trans (if_pos h))

end

theorem ofNat_length_toNat {g : List Byte} (h : g.length ≤ 255) :
    (BitVec.ofNat 8 g.length).toNat = g.length := by
  rw [BitVec.toNat_ofNat]
  omega

/-! ## The field that an `OutOfRange` names (R240, R331) -/

/-- The field an error names, if it is an `OutOfRange`. -/
def errorField : ErrorEvent → Option FieldName
  | .outOfRange field _ _ _ => some field
  | _ => none

theorem trailingCheck_field (f : FieldName) (t : Option (List Byte)) :
    (trailingCheck f t).bind errorField = emptyTrailing f t := by
  match t with
  | none => rfl
  | some [] => rfl
  | some (_ :: _) => rfl

/-- A check of `rssi` before other checks names `rssi` first. -/
theorem rssiCheck_or_field (r : Byte) (rest : Option ErrorEvent) :
    ((rssiCheck r).or rest).bind errorField =
      if 100 < r.toNat then some .rssi else rest.bind errorField := by
  unfold rssiCheck
  split <;> rfl

/-- A check of an embedded sequence before other checks names its field first. -/
theorem embeddedCheck_or_field (f : FieldName) (s : List Byte) (rest : Option ErrorEvent) :
    ((embeddedCheck f s).or rest).bind errorField =
      if 255 < s.length then some f else rest.bind errorField := by
  unfold embeddedCheck
  split <;> rfl

/-- The range checks name the first field in layout order that is out of range. -/
theorem rangeCheck_field (p : Packet) : (rangeCheck p).bind errorField = fieldOutOfRange p := by
  cases p with
  | txStatus | modemStatus | transmitStatus => rfl
  | rx64 f | rx16 f | rx64Io f | rx16Io f =>
    rw [rangeCheck, rssiCheck_or_field, trailingCheck_field, fieldOutOfRange]
  | deviceRequest f =>
    rw [rangeCheck, embeddedCheck_or_field, trailingCheck_field, fieldOutOfRange]
  | sendDataRequest f =>
    rw [rangeCheck, embeddedCheck_or_field, embeddedCheck_or_field, trailingCheck_field,
      fieldOutOfRange]
  | _ => exact trailingCheck_field _ _

theorem rssiCheck_error {r : Byte} (h : 100 < r.toNat) :
    rssiCheck r = some (.outOfRange .rssi r.toNat 0 100) := if_pos h

theorem embeddedCheck_error (f : FieldName) {s : List Byte} (h : 255 < s.length) :
    embeddedCheck f s = some (.outOfRange f s.length 0 255) := if_pos h

theorem rangeCheck_rssi {p : Packet} {r : Byte} (hp : packetRssi p = some r) (hr : 100 < r.toNat) :
    rangeCheck p = some (.outOfRange .rssi r.toNat 0 100) := by
  cases p with
  | rx64 f | rx16 f | rx64Io f | rx16Io f =>
    cases hp
    rw [rangeCheck, rssiCheck_error hr, Option.some_or]
  | _ => cases hp

/-! ## The obligations -/

/-- Settles O31: the response row by the bytes that ENCODE writes for it, the other three by their
layouts, which read no further byte. -/
theorem statusLayouts : Obligations.StatusLayouts := by
  intro c id x y st h l n d e t
  refine ⟨?_, ?_, ?_, ?_⟩
  · intro p
    exact layout_of_encodeBody (p := p) rfl (optionalBytes_ne_empty t) (by simp [p, encodeBody]) c
      rfl rfl rfl
  · intro p
    have hdec : decodeFrame c ([0x89, id, st] ++ t) = .ok p :=
      decodeFrame_fixed c (t := .txStatus) nofun nofun rfl (by simp [minLength])
    exact ⟨decodesTo_of_decodeFrame hdec rfl rfl, encodesTo_of_inRange c rfl⟩
  · intro p
    have hdec : decodeFrame c ([0x8A, st] ++ t) = .ok p :=
      decodeFrame_fixed c (t := .modemStatus) nofun nofun rfl (by simp [minLength])
    exact ⟨decodesTo_of_decodeFrame hdec rfl rfl, encodesTo_of_inRange c rfl⟩
  · intro p
    have hdec : decodeFrame c ([0x8B, id, h, l, n, d, e] ++ t) = .ok p := by
      refine (decodeFrame_fixed c (t := .transmitStatus) nofun nofun rfl (by simp [minLength])).trans
        ?_
      simp [decodeBody, decodeTransmitStatus, u16At_pair, p]
    have hbody : encodeBody p = [id, h, l, n, d, e] := by simp [encodeBody, p]
    exact ⟨decodesTo_of_decodeFrame hdec rfl rfl, hbody ▸ encodesTo_of_inRange c rfl⟩

/-- Settles O33: the two rows by the bytes that ENCODE writes for them, and each length byte that says
too much by the test that finds it. -/
theorem embeddedLengthLayouts : Obligations.EmbeddedLengthLayouts := by
  intro c hc
  refine ⟨?_, ?_, ?_, ?_, ?_⟩
  · intro id tr fl g t hg p
    have hin : inRange p = true := by simp [inRange, p, hg, optionalBytes_ne_empty]
    have hbody : encodeBody p = [id, tr, fl, BitVec.ofNat 8 g.length] ++ g ++ t := by
      simp [encodeBody, p]
    have hdec := decodeFrame_payloadOf (ftLookup_frameCode hc _) (fitsLayout_of_inRange hin)
    rw [payloadOf, hbody] at hdec
    exact ⟨decodesTo_of_decodeFrame hdec rfl rfl, hbody ▸ encodesTo_of_inRange c hin⟩
  · intro id tr fl n t ht
    refine decodeFails_of_decodeFrame ?_
    refine (decodeFrame_row hc (t := .deviceRequest) rfl (by simp [minLength])).trans ?_
    exact decodeDeviceRequest_short (by simp; omega) rfl (Nat.add_lt_add_left ht 5)
  · intro id tr o g k t hg hk p body
    have hin : inRange p = true := by simp [inRange, p, hg, hk, optionalBytes_ne_empty]
    have hbody : encodeBody p = body := by simp [encodeBody, p, body]
    have hdec := decodeFrame_payloadOf (ftLookup_frameCode hc _) (fitsLayout_of_inRange hin)
    rw [payloadOf, hbody] at hdec
    exact ⟨decodesTo_of_decodeFrame hdec rfl rfl, hbody ▸ encodesTo_of_inRange c hin⟩
  · intro id n t ht hn
    refine decodeFails_of_decodeFrame ?_
    refine (decodeFrame_row hc (t := .sendDataRequest) rfl (by simp [minLength]; omega)).trans ?_
    exact decodeSendDataRequest_shortPath (by simp; omega) rfl (by omega)
  · intro id m g t hg ht hm
    refine decodeFails_of_decodeFrame ?_
    refine (decodeFrame_row hc (t := .sendDataRequest) rfl (by simp [minLength]; omega)).trans ?_
    have hcut : c.ftSendDataRequest :: (id :: BitVec.ofNat 8 g.length :: [] ++ g ++ [m] ++ t) =
        ([c.ftSendDataRequest, id, BitVec.ofNat 8 g.length] ++ g) ++ m :: t := by
      simp
    have htype := byteAt_of_eq_append (i := 3 + g.length) hcut (by simp; omega)
    exact decodeSendDataRequest_shortType (by simp; omega) (ofNat_length_toNat hg)
      (congrArg BitVec.toNat htype) (by omega) (by omega)

/-- Settles O35: the three operations report the first error of the checks, which names the first field
out of range; the stated values and ranges check by check. -/
theorem rangeChecksAtConstruction : Obligations.RangeChecksAtConstruction := by
  intro s p
  refine ⟨fun hr => ?_, fun r hp hr => ?_, fun f hf hg => ?_, fun f hf hg => ?_,
    fun f hf hg hk => ?_⟩
  · obtain ⟨field, value, lo, hi, he⟩ := rangeCheck_of_not_inRange hr
    have hfield : fieldOutOfRange p = some field := by
      rw [← rangeCheck_field, he]
      rfl
    exact ⟨field, value, lo, hi, hfield, exec_encode_rangeError he s, exec_send_rangeError he s,
      fun hc => exec_sendAndWait_error hc (waitCheck_rangeError he s)⟩
  · exact exec_encode_rangeError (rangeCheck_rssi hp hr) s
  · subst hf
    refine exec_encode_rangeError ?_ s
    rw [rangeCheck, embeddedCheck_error _ hg, Option.some_or]
  · subst hf
    refine exec_encode_rangeError ?_ s
    rw [rangeCheck, embeddedCheck_error _ hg, Option.some_or]
  · subst hf
    refine exec_encode_rangeError ?_ s
    rw [rangeCheck, (embeddedCheck_eq_none_iff _ _).mpr hg, embeddedCheck_error _ hk,
      Option.none_or, Option.some_or]

/-- Settles O38, by whether the sample has the value. -/
theorem iosPowerResult : Obligations.IosPowerResult := by
  intro k s
  constructor
  · intro v hv
    rw [exec_iosPower, hv]
    rfl
  · intro hv
    rw [exec_iosPower, hv]
    rfl

/-- Settles O41: the fixed codes one by one; the two parameters and every other byte have no family. -/
theorem responseFamilyTable : Obligations.ResponseFamilyTable := by
  intro c b _
  by_cases h : b ∈ fixedCodes
  · simp only [fixedCodes, List.mem_cons, List.not_mem_nil, or_false] at h
    obtain rfl | rfl | rfl | rfl | rfl | rfl | rfl | rfl | rfl | rfl | rfl | rfl | rfl | rfl | rfl |
      rfl | rfl | rfl | rfl := h <;> rfl
  · have hnone : respFamilyOf c b = none := by
      rw [respFamilyOf, ftLookup_not_fixed c h]
      split
      · rfl
      · split <;> rfl
    have hne : ∀ k ∈ fixedCodes, b ≠ k := by
      rintro k hk rfl
      exact h hk
    rw [hnone, if_neg, if_neg, if_neg, if_neg]
    · exact not_or.mpr ⟨hne 0x00 (by decide), hne 0x01 (by decide)⟩
    · exact not_or.mpr ⟨hne 0x10 (by decide), hne 0x11 (by decide)⟩
    · exact hne 0x17 (by decide)
    · exact not_or.mpr ⟨hne 0x08 (by decide), hne 0x09 (by decide)⟩

/-- Settles O25, by the three cases of TX_FRAME. -/
theorem transmitFrameResult : Obligations.TransmitFrameResult := by
  intro p s
  refine ⟨fun ho => ?_, fun ho hl => ?_, fun ho hl => ?_⟩
  · rw [exec_txFrame, txFrame_closed ho]
  · rw [exec_txFrame, txFrame_tooLong ho hl]
    rfl
  · intro body
    have hbody : frameBody p (checksum p) = body := by rw [frameBody, bytesN_two]
    rw [exec_txFrame, txFrame_fits ho hl, wrap_eq, hbody, stuff, apply_ite (List.cons (0x7E : Byte))]
    rfl

/-- Settles O54: each operation by its equation, whose result reads only the configuration. -/
theorem codecOperationsArePure : Obligations.CodecOperationsArePure := by
  intro c i hi
  obtain ⟨p, rfl⟩ | ⟨t, p, rfl⟩ | ⟨p, rfl⟩ | ⟨t, b, rfl⟩ | ⟨k, rfl⟩ | ⟨p, rfl⟩ | ⟨r, rfl⟩ |
    ⟨e, w, rfl⟩ := hi
  · exact ⟨_, fun s hs => hs ▸ exec_decodeFrame p s⟩
  · exact ⟨_, fun s hs => hs ▸ exec_decodeAs t p s⟩
  · cases he : rangeCheck p with
    | some e => exact ⟨_, fun s _ => exec_encode_rangeError he s⟩
    | none => exact ⟨_, fun s _ => exec_encode_inRange ((rangeCheck_eq_none_iff p).mp he) s⟩
  · exact ⟨_, fun s hs => hs ▸ exec_iosDecode t b s⟩
  · exact ⟨_, fun s _ => exec_iosPower k s⟩
  · exact ⟨_, fun s _ => exec_checksum p s⟩
  · exact ⟨_, fun s _ => exec_escape r s⟩
  · exact ⟨_, fun s _ => exec_unescape e w s⟩

/-- Settles O2: the decoder's context is what the statement gives it. -/
theorem stepRunsTheDecodedInstruction : Obligations.StepRunsTheDecodedInstruction :=
  fun _ _ _ _ h hd _ => step_decoded h hd

/-- Settles O3, item by item. -/
theorem stepWithoutAnInstruction : Obligations.StepWithoutAnInstruction := by
  intro s q
  refine ⟨step_idle, fun p e h he => ?_, fun w h _ => ?_, fun t b h hb => ?_⟩
  · rw [step_rejected h (decode_payload_error (x := ctxOf s) he)]
    rfl
  · rw [step_rxChunk h, feed_eq_receiveAll]
    rfl
  · rw [step_rejected h (decode_noSample (x := ctxOf s) (Option.map_eq_none_iff.mp hb))]
    rfl

end Sys2Proof.Machine
end

section
/-! SUPPORT. Frame-type rows as deliveries, the ends of a wait, RESET and CLOSE, and what the operations
do while the connection is closed. -/

namespace Sys2Proof.Machine

/-! ## Frame-type rows (R286, R288) -/

/-- DELIVER in one equation: the wait of the packet's frame ID, if its three conditions hold. -/
theorem exec_deliver_eq_delivered (p : Packet) (s : State) :
    exec (.deliver p) s = .next (delivered p s) := by
  unfold delivered
  cases hf : packetFrameId p with
  | none =>
    refine exec_deliver_not_resolves fun f h => ?_
    cases hf.symm.trans (resolves_iff.mp h).1
  | some f =>
    dsimp only
    split
    case isTrue h =>
      obtain ⟨hc, hpending, hfamily⟩ := h
      exact exec_deliver_resolves ⟨hc, hf, hpending, hfamily⟩
    case isFalse h =>
      refine exec_deliver_not_resolves fun g hg => h ?_
      obtain ⟨hc, hg, hpending, hfamily⟩ := hg
      obtain rfl : f = g := Option.some.inj (hf.symm.trans hg)
      exact ⟨hc, hpending, hfamily⟩

theorem receivePkt_eq_delivered (p : Packet) (s : State) : receivePkt p s = delivered p s :=
  Host.Outcome.next.inj ((exec_deliver p s).symm.trans (exec_deliver_eq_delivered p s))

/-- Every response family is a row with the role of a response (R290, R100). -/
theorem role_of_respFamily {t u : FrameType} (h : respFamily t = some u) : role u = .response := by
  cases t <;> cases h <;> rfl

/-- A request or an indication resolves no wait (R288). -/
theorem not_resolves_of_role {p : Packet} (h : role (packetType p) ≠ .response) (s : State)
    (f : Byte) : ¬ Resolves s f p := by
  rintro ⟨-, -, -, hfamily⟩
  obtain ⟨t, -, ht⟩ := Option.bind_eq_some_iff.mp hfamily
  exact h (role_of_respFamily ht)

theorem receivePkt_queued {p : Packet} (h : role (packetType p) ≠ .response) (s : State) :
    receivePkt p s = queued p s :=
  Host.Outcome.next.inj ((exec_deliver p s).symm.trans
    (exec_deliver_not_resolves (not_resolves_of_role h s)))

/-! ## CORR_TIMEOUT and CORR_CANCEL (R296, R298) -/

section
variable {s : State} (f : Byte)

theorem exec_corrTimeout_present (hc : s.cfg.corrPresent = true) : exec (.corrTimeout f) s =
    .next (if (s.corrAt f).pending then failWait f (.timeout f) s else s) := by
  refine (if_pos hc).trans ?_
  split <;> rfl

theorem exec_corrCancel_present (hc : s.cfg.corrPresent = true) : exec (.corrCancel f) s =
    .next (if (s.corrAt f).pending then s.clearPending f else s) := by
  refine (if_pos hc).trans ?_
  split <;> rfl

variable (hc : s.cfg.corrPresent = false)
include hc

theorem exec_sendAndWait_absent (p : Packet) : exec (.sendAndWait p) s = .refused .corrAbsent :=
  if_neg (Bool.eq_false_iff.mp hc)

theorem exec_corrTimeout_absent : exec (.corrTimeout f) s = .refused .corrAbsent :=
  if_neg (Bool.eq_false_iff.mp hc)

theorem exec_corrCancel_absent : exec (.corrCancel f) s = .refused .corrAbsent :=
  if_neg (Bool.eq_false_iff.mp hc)

end

/-! ## The pending waits, in order (R299) -/

theorem mem_pendingIds {s : State} {f : Byte} :
    f ∈ pendingIds s.corr ↔ (s.corrAt f).pending = true := by
  simp only [pendingIds, List.mem_map, List.mem_filter, List.mem_finRange, true_and]
  constructor
  · rintro ⟨i, hi, rfl⟩
    have hval : (BitVec.ofNat 8 i.val).toNat = i.val := by
      rw [BitVec.toNat_ofNat]
      exact Nat.mod_eq_of_lt i.isLt
    simpa only [State.corrAt, hval, Fin.getElem_fin] using hi
  · intro hf
    exact ⟨⟨f.toNat, f.isLt⟩, hf, by simp⟩

theorem pendingIds_pairwise (v : Vector CorrEntry 256) : (pendingIds v).Pairwise (· < ·) := by
  refine List.Pairwise.map _ (fun i j hij => ?_) ((List.pairwise_lt_finRange 256).filter _)
  have hi := i.isLt
  have hj := j.isLt
  have hlt : i.val < j.val := hij
  rw [BitVec.lt_def, BitVec.toNat_ofNat, BitVec.toNat_ofNat]
  omega

/-- The waits that CLOSE ends. -/
def closeIds (s : State) : List Byte := if s.cfg.corrPresent then pendingIds s.corr else []

theorem mem_closeIds {s : State} {f : Byte} :
    f ∈ closeIds s ↔ s.cfg.corrPresent = true ∧ (s.corrAt f).pending = true := by
  unfold closeIds
  split
  case isTrue h => simp [h, mem_pendingIds]
  case isFalse h => simp [h]

theorem closeIds_pairwise (s : State) : (closeIds s).Pairwise (· < ·) := by
  unfold closeIds
  split
  · exact pendingIds_pairwise _
  · exact List.Pairwise.nil

/-- `CORR` after CLOSE and after RESET. -/
def corrCleared (s : State) : Vector CorrEntry 256 :=
  if s.cfg.corrPresent then clearAll s.corr else s.corr

theorem corrCleared_get (s : State) (f : Byte) : (corrCleared s)[f.toNat]'f.isLt =
    if s.cfg.corrPresent = true then { s.corrAt f with pending := false } else s.corrAt f := by
  unfold corrCleared
  split
  · exact clearAll_get s.corr f.toNat f.isLt
  · rfl

theorem closeBlock_closed {s : State} (ho : s.connOpen = false) : closeBlock s = s := by
  simp [closeBlock, ho]

/-- CLOSE of an open connection in one equation (R352). -/
theorem closeBlock_open {s : State} (ho : s.connOpen = true) : closeBlock s =
    { s with
      connOpen := false, rx := { s.rx with state := .awaitingDelimiter, esc := false },
      corr := corrCleared s,
      rspOut := s.rspOut ++ (closeIds s).map fun f => .failed (.connectionClosed (some f)) } := by
  cases hc : s.cfg.corrPresent with
  | true => simp [closeBlock, ho, hc, corrCleared, closeIds, closeEvents]
  | false => simp [closeBlock, ho, hc, corrCleared, closeIds]

/-- After reset no wait is pending, and `req_type` is 0 everywhere (R351). -/
theorem resetWith_corrAt (c : Cfg) (f : Byte) : (State.resetWith c).corrAt f = CorrEntry.reset := by
  simp [State.corrAt, State.resetWith]

/-! ## A closed connection (R353) -/

theorem receive_closed {s : State} (ho : s.connOpen = false) (b : Byte) :
    receive b s = .next s := by
  simp [receive, ho]

theorem receiveAll_closed {s : State} (ho : s.connOpen = false) (w : List Byte) :
    receiveAll w s = .next s := by
  induction w with
  | nil => rfl
  | cons b w ih => rw [receiveAll_cons_next (receive_closed ho b), ih]

/-! ## The obligations -/

/-- Settles O40: a row is the delivery of its packet, and a packet that is no response is queued. -/
theorem frameTypeRowsDeliverTheirPacket : Obligations.FrameTypeRowsDeliverTheirPacket := by
  intro s
  have hqueued (p : Packet) (h : role (packetType p) ≠ .response) :
      (Host.Outcome.next (receivePkt p s) : Host.Outcome State Fault Refusal) =
        .next (queued p s) := congrArg _ (receivePkt_queued h s)
  have hdelivered (p : Packet) :
      (Host.Outcome.next (receivePkt p s) : Host.Outcome State Fault Refusal) =
        .next (delivered p s) := congrArg _ (receivePkt_eq_delivered p s)
  exact ⟨fun f => hqueued (.tx64 f) nofun, fun f => hqueued (.tx16 f) nofun,
    fun f => hqueued (.atCommand f) nofun, fun f => hqueued (.atCommandQueue f) nofun,
    fun f => hqueued (.transmitRequest f) nofun, fun f => hqueued (.explicitAddressing f) nofun,
    fun f => hqueued (.remoteAtCommand f) nofun, fun f => hqueued (.rx64 f) nofun,
    fun f => hqueued (.rx16 f) nofun, fun f => hqueued (.rx64Io f) nofun,
    fun f => hqueued (.rx16Io f) nofun, fun f => hqueued (.modemStatus f) nofun,
    fun f => hqueued (.receivePacket f) nofun, fun f => hqueued (.explicitRxIndicator f) nofun,
    fun f => hqueued (.ioDataSampleRx f) nofun, fun f => hqueued (.deviceRequest f) nofun,
    fun f => hqueued (.sendDataRequest f) nofun, fun f => hdelivered (.atCommandResponse f),
    fun f => hdelivered (.txStatus f), fun f => hdelivered (.transmitStatus f),
    fun f => hdelivered (.remoteAtCommandResponse f)⟩

/-- Settles O45, by whether the wait is pending. -/
theorem timeoutAndCancelResults : Obligations.TimeoutAndCancelResults := by
  intro s f hc
  rw [exec_corrTimeout_present f hc, exec_corrCancel_present f hc]
  constructor
  · intro hp corr
    rw [if_pos hp, if_pos hp]
    exact ⟨rfl, rfl⟩
  · intro hp
    rw [if_neg (Bool.eq_false_iff.mp hp), if_neg (Bool.eq_false_iff.mp hp)]
    exact ⟨rfl, rfl⟩

/-- Settles O46: without unit 5 no wait can be resolved, and the wait operations are refused. -/
theorem buildWithoutTheCorrelationUnit : Obligations.BuildWithoutTheCorrelationUnit := by
  intro s hc
  refine ⟨fun p => exec_deliver_not_resolves fun f h => ?_, exec_sendAndWait_absent hc,
    fun f => exec_corrTimeout_absent f hc, fun f => exec_corrCancel_absent f hc⟩
  obtain ⟨hpresent, -⟩ := h
  cases hc.symm.trans hpresent

/-- Settles O48, by the two cases of LQ_POP. -/
theorem popTakesTheHead : Obligations.PopTakesTheHead := by
  intro s
  have hexec : exec .lqPop s = .next (popListener s) := rfl
  rw [hexec]
  obtain ⟨hlq, hpop⟩ | ⟨d, q, hlq, hpop⟩ := popListener_cases s
  · refine ⟨fun _ => ?_, fun d q h => ?_⟩
    · rw [hpop]
      rfl
    · cases hlq.symm.trans h
  · refine ⟨fun h => ?_, fun d' q' h => ?_⟩
    · cases hlq.symm.trans h
    · cases hlq.symm.trans h
      rw [hpop]
      rfl

/-- Settles O49, row by row. -/
theorem errorRowsResults : Obligations.ErrorRowsResults := by
  intro s
  refine ⟨rfl, ?_, fun x y => rfl, fun f v lo hi => ⟨rfl, rfl⟩, fun f => ⟨rfl, rfl⟩, rfl, rfl,
    fun f => rfl, rfl⟩
  rintro e i j (⟨rfl, rfl, rfl⟩ | ⟨m, n, rfl, rfl, rfl⟩ | ⟨b, rfl, rfl, rfl⟩)
  · exact ⟨rfl, rfl⟩
  · exact ⟨rfl, rfl⟩
  · exact ⟨rfl, rfl⟩

/-- Settles O50: the registers as RESET writes them, and the entry of each frame ID. -/
theorem resetOperationResult : Obligations.ResetOperationResult :=
  fun s => ⟨corrCleared s, rfl, corrCleared_get s⟩

/-- Settles O51, field by field. -/
theorem stateAfterReset : Obligations.StateAfterReset :=
  fun c => ⟨rfl, rfl, resetWith_corrAt c, rfl, rfl, rfl⟩

/-- Settles O52: the waits that end are the pending ones, in the order of their frame IDs. -/
theorem closeOperationResult : Obligations.CloseOperationResult := by
  intro s
  have hexec : exec .close s = .next (closeBlock s) := rfl
  rw [hexec]
  constructor
  · intro ho
    rw [closeBlock_closed ho]
  · intro ho
    exact ⟨corrCleared s, closeIds s, congrArg _ (closeBlock_open ho), closeIds_pairwise s,
      fun f => mem_closeIds, corrCleared_get s⟩

/-- Settles O53: every operation that tests the connection finds it closed, and no wait is pending. -/
theorem behaviourWhileClosed : Obligations.BehaviourWhileClosed := by
  intro s ho hok
  obtain ⟨-, hpending⟩ := hok ho
  refine ⟨?_, fun p c => receiveAll_closed ho _, fun p => ?_, fun p hp => ?_,
    fun hc => ⟨fun p f hp hl hf => ?_, fun f => ?_⟩⟩
  · intro b i hi
    obtain rfl | rfl | rfl | rfl | rfl | rfl := hi
    · exact receive_closed ho b
    · rw [exec_rawDelimiter, receive_closed ho]
    · rw [exec_rawNoise, receive_closed ho]
    · rw [exec_rawEscapeMarker, receive_closed ho]
    · rw [exec_rawEscapedSecond, receive_closed ho]
    · rw [exec_rawLiteral, receive_closed ho]
  · rw [exec_txFrame, txFrame_closed ho]
  · rw [exec_send_inRange hp, txFrame_closed ho]
  · exact exec_sendAndWait_error hc (waitCheck_closed hp hl hf ho)
  · have hf : ¬ (s.corrAt f).pending = true := Bool.eq_false_iff.mp (hpending f)
    rw [exec_corrTimeout_present f hc, exec_corrCancel_present f hc, if_neg hf, if_neg hf]
    exact ⟨rfl, rfl⟩

end Sys2Proof.Machine
end

section
/-! SUPPORT. Every step, by what its item is: received bytes, a payload, an answer on `CODEC`, or one of
the operations that move the connection, the waits and the queue. -/

namespace Sys2Proof.Machine

/-! ## The meaning of an item -/

/-- The raw bytes that an item hands to the receive path. -/
def receivedBytes : Item → Option (List Byte)
  | .rxIn b => some [b]
  | .rxChunk w => some w
  | .event (.rxByte b) => some [b]
  | _ => none

/-- The answer on `CODEC` to an item that is answered there and does nothing else (R70). -/
def codecAnswer : Item → Option (Cfg → CodecResult)
  | .stuffed b => some fun _ => .bytes (escapeByte b)
  | .block t b => some fun c => .sample (iosDecode c t b)
  | .event (.decodeFrame p) => some fun c => decodeResult c (decodeFrame c p)
  | .event (.decodeAs t p) => some fun c => decodeResult c (decodeAs c t p)
  | .event (.encode p) => some fun _ => (rangeCheck p).elim (.bytes (encodeBody p)) .failed
  | .event (.iosDecode t b) => some fun c => .sample (b.bind (iosDecode c t))
  | .event (.iosPower k) => some fun _ => k.power.elim (.failed .operationNotSupported) .power
  | .event (.checksum p) => some fun _ => .byte (checksum p)
  | .event (.escape r) => some fun _ => .bytes (escape r)
  | .event (.unescape e w) => some fun _ => .unescaped (unescapeFrom e w).1 (unescapeFrom e w).2
  | _ => none

/-- CORR_TIMEOUT where unit 5 exists (R296). -/
def timeoutWait (f : Byte) (s : State) : State :=
  if (s.corrAt f).pending then failWait f (.timeout f) s else s

/-- CORR_CANCEL where unit 5 exists (R298). -/
def cancelWait (f : Byte) (s : State) : State :=
  if (s.corrAt f).pending then s.clearPending f else s

/-- An operation that only a build with unit 5 has (R285). -/
def ifPresent (g : State → State) (s : State) : Host.Outcome State Fault Refusal :=
  if s.cfg.corrPresent then .next (g s) else .refused .corrAbsent

/-- What a step with a given item does to the state without it, one case for each shared operation. -/
inductive ItemMeaning : Item → (State → Host.Outcome State Fault Refusal) → Prop where
  | received {it : Item} {w : List Byte} (h : receivedBytes it = some w) :
    ItemMeaning it (receiveAll w)
  | dispatched (p : List Byte) : ItemMeaning (.payload p) fun s => .next (dispatch p s)
  | answered {it : Item} {r : Cfg → CodecResult} (h : codecAnswer it = some r) :
    ItemMeaning it fun s => .next (s.pushCodec (r s.cfg))
  | transmitted (p : List Byte) : ItemMeaning (.event (.txFrame p)) fun s => .next (txFrame p s)
  | sent (p : Packet) : ItemMeaning (.event (.send p)) fun s => .next (sendPacket p s)
  | sentWaiting (p : Packet) : ItemMeaning (.event (.sendAndWait p)) (ifPresent (sendWaiting p))
  | timedOut (f : Byte) : ItemMeaning (.event (.corrTimeout f)) (ifPresent (timeoutWait f))
  | cancelled (f : Byte) : ItemMeaning (.event (.corrCancel f)) (ifPresent (cancelWait f))
  | popped : ItemMeaning (.event .lqPop) fun s => .next (popListener s)
  | reset : ItemMeaning (.event .reset) fun s => .next (resetBlock s)
  | closed : ItemMeaning (.event .close) fun s => .next (closeBlock s)

theorem ifPresent_present {g : State → State} {s : State} (hc : s.cfg.corrPresent = true) :
    ifPresent g s = .next (g s) := if_pos hc

theorem ifPresent_absent {g : State → State} {s : State} (hc : s.cfg.corrPresent = false) :
    ifPresent g s = .refused .corrAbsent := if_neg (Bool.eq_false_iff.mp hc)

theorem ifPresent_eq_next {g : State → State} {s t : State} (h : ifPresent g s = .next t) :
    s.cfg.corrPresent = true ∧ t = g s := by
  cases hc : s.cfg.corrPresent with
  | true => exact ⟨rfl, (Host.Outcome.next.inj ((ifPresent_present hc).symm.trans h)).symm⟩
  | false => cases (ifPresent_absent hc).symm.trans h

theorem exec_corrTimeout (f : Byte) (s : State) :
    exec (.corrTimeout f) s = ifPresent (timeoutWait f) s := by
  cases hc : s.cfg.corrPresent with
  | true => rw [exec_corrTimeout_present f hc, ifPresent_present hc, timeoutWait]
  | false => rw [exec_corrTimeout_absent f hc, ifPresent_absent hc]

theorem exec_corrCancel (f : Byte) (s : State) :
    exec (.corrCancel f) s = ifPresent (cancelWait f) s := by
  cases hc : s.cfg.corrPresent with
  | true => rw [exec_corrCancel_present f hc, ifPresent_present hc, cancelWait]
  | false => rw [exec_corrCancel_absent f hc, ifPresent_absent hc]

theorem exec_packetInstr (p : Packet) (s : State) :
    exec (packetInstr p) s = .next (receivePkt p s) := by
  cases p <;> rfl

theorem exec_stuffedInstr (b : Byte) (s : State) :
    exec (stuffedInstr b) s = .next (s.pushCodec (.bytes (escapeByte b))) := by
  unfold stuffedInstr
  split
  case isTrue h => rw [h]; rfl
  split
  case isTrue h => rw [h]; rfl
  split
  case isTrue h => rw [h]; rfl
  split
  case isTrue h => rw [h]; rfl
  have hone : escape [b] = escapeByte b := List.append_nil _
  rw [exec_escape, hone]

theorem exec_encode_answer (p : Packet) (s : State) : exec (.encode p) s =
    .next (s.pushCodec ((rangeCheck p).elim (.bytes (encodeBody p)) .failed)) := by
  cases h : rangeCheck p with
  | some e => exact exec_encode_rangeError h s
  | none => exact exec_encode_inRange ((rangeCheck_eq_none_iff p).mp h) s

theorem step_payload {s : State} {p : List Byte} {q : List Item} (h : s.input = .payload p :: q) :
    step s = .next (dispatch p (s.setInput q)) := by
  cases hd : decodeFrame s.cfg p with
  | error e =>
    rw [step_rejected h (decode_payload_error (x := ctxOf s) hd),
      dispatch_error (s := s.setInput q) hd]
    rfl
  | ok pkt =>
    rw [step_decoded h (decode_payload (x := ctxOf s) hd), exec_packetInstr,
      dispatch_ok (s := s.setInput q) hd]
    rfl

theorem step_block {s : State} {t : IoType} {b : List Byte} {q : List Item}
    (h : s.input = .block t b :: q) :
    step s = .next ((s.setInput q).pushCodec (.sample (iosDecode s.cfg t b))) := by
  cases hp : parseBlock (nsampPresent s.cfg t) b with
  | none =>
    rw [step_rejected h (decode_noSample (x := ctxOf s) hp), iosDecode, hp]
    rfl
  | some k =>
    rw [step_decoded h (decode_block (x := ctxOf s) hp), iosDecode, hp]
    rfl

/-- The meaning of an event. -/
theorem exec_eventInstr_meaning (e : Event) :
    ∃ m, ItemMeaning (.event e) m ∧ ∀ s, exec (eventInstr e) s = m s := by
  cases e with
  | rxByte b => exact ⟨_, .received rfl, fun s => (receiveAll_singleton b s).symm⟩
  | txFrame p => exact ⟨_, .transmitted p, fun s => rfl⟩
  | send p => exact ⟨_, .sent p, fun s => rfl⟩
  | sendAndWait p => exact ⟨_, .sentWaiting p, fun s => rfl⟩
  | decodeFrame p => exact ⟨_, .answered rfl, exec_decodeFrame p⟩
  | decodeAs t p => exact ⟨_, .answered rfl, exec_decodeAs t p⟩
  | encode p => exact ⟨_, .answered rfl, exec_encode_answer p⟩
  | iosDecode t b => exact ⟨_, .answered rfl, exec_iosDecode t b⟩
  | iosPower k => exact ⟨_, .answered rfl, exec_iosPower k⟩
  | checksum p => exact ⟨_, .answered rfl, exec_checksum p⟩
  | escape r => exact ⟨_, .answered rfl, exec_escape r⟩
  | unescape x w => exact ⟨_, .answered rfl, exec_unescape x w⟩
  | corrTimeout f => exact ⟨_, .timedOut f, exec_corrTimeout f⟩
  | corrCancel f => exact ⟨_, .cancelled f, exec_corrCancel f⟩
  | reset => exact ⟨_, .reset, fun s => rfl⟩
  | close => exact ⟨_, .closed, fun s => rfl⟩
  | lqPop => exact ⟨_, .popped, fun s => rfl⟩

/-- Every item has one meaning, the same in every state. -/
theorem step_meaning (it : Item) :
    ∃ m, ItemMeaning it m ∧ ∀ s q, s.input = it :: q → step s = m (s.setInput q) := by
  cases it with
  | rxIn b =>
    refine ⟨_, .received rfl, fun s q h => ?_⟩
    rw [step_decoded h rfl, receiveAll_singleton]
    exact exec_classify b (s.setInput q)
  | rxChunk w => exact ⟨_, .received rfl, fun s q h => step_rxChunk h⟩
  | stuffed b =>
    refine ⟨_, .answered rfl, fun s q h => ?_⟩
    rw [step_decoded h rfl, exec_stuffedInstr]
  | payload p => exact ⟨_, .dispatched p, fun s q h => step_payload h⟩
  | block t b => exact ⟨_, .answered rfl, fun s q h => step_block h⟩
  | event e =>
    obtain ⟨m, hm, hexec⟩ := exec_eventInstr_meaning e
    exact ⟨m, hm, fun s q h => (step_event h).trans (hexec _)⟩

/-- A step that goes on: nothing waited, or the meaning of the item gives the next state. -/
theorem step_next_cases {s t : State} (h : step s = .next t) :
    (s.input = [] ∧ t = s) ∨
    (∃ it q m, s.input = it :: q ∧ ItemMeaning it m ∧ m (s.setInput q) = .next t) := by
  cases hi : s.input with
  | nil => exact .inl ⟨rfl, (Host.Outcome.next.inj ((step_idle hi).symm.trans h)).symm⟩
  | cons it q =>
    obtain ⟨m, hm, hstep⟩ := step_meaning it
    exact .inr ⟨it, q, m, rfl, hm, (hstep s q hi).symm.trans h⟩

/-! ## What transmission leaves alone (R335) -/

/-- The parts of the state that TX_FRAME and SEND do not write. -/
structure TransmitKeeps (s t : State) : Prop where
  cfg : t.cfg = s.cfg
  connOpen : t.connOpen = s.connOpen
  rx : t.rx = s.rx
  corr : t.corr = s.corr
  lq : t.lq = s.lq
  frameOut : t.frameOut = s.frameOut
  pktOut : t.pktOut = s.pktOut
  rspOut : t.rspOut = s.rspOut
  evtOut : t.evtOut = s.evtOut
  codecOut : t.codecOut = s.codecOut
  input : t.input = s.input

theorem TransmitKeeps.refl (s : State) : TransmitKeeps s s :=
  ⟨rfl, rfl, rfl, rfl, rfl, rfl, rfl, rfl, rfl, rfl, rfl⟩

theorem pushReq_keeps (e : ErrorEvent) (s : State) : TransmitKeeps s (s.pushReq e) :=
  ⟨rfl, rfl, rfl, rfl, rfl, rfl, rfl, rfl, rfl, rfl, rfl⟩

theorem txFrame_keeps (p : List Byte) (s : State) : TransmitKeeps s (txFrame p s) := by
  obtain ⟨-, h⟩ | ⟨-, -, h⟩ | ⟨-, -, h⟩ := txFrame_cases p s
  · rw [h]
    exact .refl s
  · rw [h]
    exact pushReq_keeps _ s
  · rw [h]
    exact ⟨rfl, rfl, rfl, rfl, rfl, rfl, rfl, rfl, rfl, rfl, rfl⟩

theorem sendPacket_keeps (p : Packet) (s : State) : TransmitKeeps s (sendPacket p s) := by
  obtain ⟨e, -, h⟩ | ⟨-, h⟩ := sendPacket_cases p s
  · rw [h]
    exact pushReq_keeps e s
  · rw [h]
    exact txFrame_keeps _ s

/-! ## Ownership -/

/-- What ownership allows a step with the item `it` to change (R335). -/
structure WritesOwn (it : Item) (s t : State) : Prop where
  cfg : t.cfg = s.cfg
  input : t.input = s.input
  rx : t.rx ≠ s.rx → isReceiveItem it = true ∨ it = .event .reset ∨ it = .event .close
  connOpen : t.connOpen ≠ s.connOpen → it = .event .reset ∨ it = .event .close
  txOut : t.txOut ≠ s.txOut →
    ∃ p, it = .event (.txFrame p) ∨ ∃ k, it = .event (.send k) ∨ it = .event (.sendAndWait k)
  lq : t.lq ≠ s.lq → isReceiveItem it = true ∨ it = .event .lqPop ∨ it = .event .reset
  corr : t.corr ≠ s.corr →
    isReceiveItem it = true ∨ isWaitItem it = true ∨ it = .event .reset ∨ it = .event .close

/-- The receive path may change what it does not leave alone. -/
theorem ReceiveKeeps.writesOwn {it : Item} {s t : State} (h : ReceiveKeeps s t)
    (hit : isReceiveItem it = true) : WritesOwn it s t where
  cfg := h.cfg
  input := h.input
  rx _ := .inl hit
  connOpen hne := absurd h.connOpen hne
  txOut hne := absurd h.txOut hne
  lq _ := .inl hit
  corr _ := .inl hit

/-- A transmit operation may change `TX_OUT`. -/
theorem TransmitKeeps.writesOwn {it : Item} {s t : State} (h : TransmitKeeps s t)
    (hit : ∃ p, it = .event (.txFrame p) ∨ ∃ k, it = .event (.send k) ∨
      it = .event (.sendAndWait k)) : WritesOwn it s t where
  cfg := h.cfg
  input := h.input
  rx hne := absurd h.rx hne
  connOpen hne := absurd h.connOpen hne
  txOut _ := hit
  lq hne := absurd h.lq hne
  corr hne := absurd h.corr hne

theorem isReceiveItem_of_receivedBytes {it : Item} {w : List Byte}
    (h : receivedBytes it = some w) : isReceiveItem it = true := by
  unfold receivedBytes at h
  split at h
  · rfl
  · rfl
  · rfl
  · cases h

theorem timeoutWait_cases (f : Byte) (s : State) :
    ((s.corrAt f).pending = true ∧ timeoutWait f s = failWait f (.timeout f) s) ∨
    timeoutWait f s = s := by
  unfold timeoutWait
  split
  case isTrue h => exact .inl ⟨h, rfl⟩
  case isFalse => exact .inr rfl

theorem cancelWait_cases (f : Byte) (s : State) :
    ((s.corrAt f).pending = true ∧ cancelWait f s = s.clearPending f) ∨
    ((s.corrAt f).pending = false ∧ cancelWait f s = s) := by
  unfold cancelWait
  split
  case isTrue h => exact .inl ⟨h, rfl⟩
  case isFalse h => exact .inr ⟨Bool.eq_false_iff.mpr h, rfl⟩

/-- Each item writes only the state that its agent owns. -/
theorem ItemMeaning.writesOwn {it : Item} {m : State → Host.Outcome State Fault Refusal}
    (hm : ItemMeaning it m) {s t : State} (h : m s = .next t) : WritesOwn it s t := by
  have hne {α : Type} {a : α} {P : Prop} (h : a ≠ a) : P := absurd rfl h
  cases hm with
  | received hw => exact (receiveAll_keeps h).writesOwn (isReceiveItem_of_receivedBytes hw)
  | dispatched p =>
    cases h
    exact (dispatch_keeps p s).writesOwn rfl
  | answered hr =>
    cases h
    exact ⟨rfl, rfl, hne, hne, hne, hne, hne⟩
  | transmitted p =>
    cases h
    exact (txFrame_keeps p s).writesOwn ⟨p, .inl rfl⟩
  | sent p =>
    cases h
    exact (sendPacket_keeps p s).writesOwn ⟨[], .inr ⟨p, .inl rfl⟩⟩
  | sentWaiting p =>
    obtain ⟨-, rfl⟩ := ifPresent_eq_next h
    obtain ⟨e, -, h⟩ | ⟨f, -, -, h⟩ := sendWaiting_cases p s
    · rw [h]
      exact (pushReq_keeps e s).writesOwn ⟨[], .inr ⟨p, .inr rfl⟩⟩
    · rw [h]
      exact ⟨rfl, rfl, hne, hne, fun _ => ⟨[], .inr ⟨p, .inr rfl⟩⟩, hne, fun _ => .inr (.inl rfl)⟩
  | timedOut f =>
    obtain ⟨-, rfl⟩ := ifPresent_eq_next h
    obtain ⟨-, h⟩ | h := timeoutWait_cases f s
    · rw [h]
      exact ⟨rfl, rfl, hne, hne, hne, hne, fun _ => .inr (.inl rfl)⟩
    · rw [h]
      exact ⟨rfl, rfl, hne, hne, hne, hne, hne⟩
  | cancelled f =>
    obtain ⟨-, rfl⟩ := ifPresent_eq_next h
    obtain ⟨-, h⟩ | ⟨-, h⟩ := cancelWait_cases f s
    · rw [h]
      exact ⟨rfl, rfl, hne, hne, hne, hne, fun _ => .inr (.inl rfl)⟩
    · rw [h]
      exact ⟨rfl, rfl, hne, hne, hne, hne, hne⟩
  | popped =>
    cases h
    obtain ⟨-, h⟩ | ⟨d, q, -, h⟩ := popListener_cases s
    · rw [h]
      exact ⟨rfl, rfl, hne, hne, hne, hne, hne⟩
    · rw [h]
      exact ⟨rfl, rfl, hne, hne, hne, fun _ => .inr (.inl rfl), hne⟩
  | reset =>
    cases h
    exact ⟨rfl, rfl, fun _ => .inr (.inl rfl), fun _ => .inl rfl, hne, fun _ => .inr (.inr rfl),
      fun _ => .inr (.inr (.inl rfl))⟩
  | closed =>
    cases h
    obtain hopen | hopen := Bool.eq_false_or_eq_true s.connOpen
    · rw [closeBlock_open hopen]
      exact ⟨rfl, rfl, fun _ => .inr (.inr rfl), fun _ => .inr rfl, hne, hne,
        fun _ => .inr (.inr (.inr rfl))⟩
    · rw [closeBlock_closed hopen]
      exact ⟨rfl, rfl, hne, hne, hne, hne, hne⟩

/-! ## The obligation -/

/-- Settles O55: each item writes its own, and the step has taken it off the list before. -/
theorem eachAgentWritesItsOwnState : Obligations.EachAgentWritesItsOwnState := by
  intro s t h
  obtain ⟨hi, rfl⟩ | ⟨it, q, m, hi, hm, hnext⟩ := step_next_cases h
  · refine ⟨rfl, fun it q h => ?_⟩
    cases hi.symm.trans h
  · have own := hm.writesOwn hnext
    refine ⟨own.cfg, fun it' q' h' => ?_⟩
    cases hi.symm.trans h'
    exact ⟨own.input, own.rx, own.connOpen, own.txOut, own.lq, own.corr⟩

end Sys2Proof.Machine
end

section
/-! SUPPORT. The invariants of the good states: each shared operation keeps them, so every step does; and
in a good state every input has a result. -/

namespace Sys2Proof.Machine

/-! ## What the invariants speak of -/

/-- The invariants speak of the configuration, the connection, the RX registers, `CORR` and `LQ`. -/
theorem Inv.congr {s t : State} (h : Inv s) (hcfg : t.cfg = s.cfg)
    (hopen : t.connOpen = s.connOpen) (hrx : t.rx = s.rx) (hcorr : t.corr = s.corr)
    (hlq : t.lq = s.lq) : Inv t := by
  cases s
  cases t
  cases hcfg
  cases hopen
  cases hrx
  cases hcorr
  cases hlq
  exact ⟨h.cfg, h.buf, h.rx, h.sum, h.corr, h.closed, h.absent, h.lq⟩

theorem Inv.setInput {s : State} (h : Inv s) (q : List Item) : Inv (s.setInput q) :=
  h.congr rfl rfl rfl rfl rfl

theorem TransmitKeeps.inv {s t : State} (h : TransmitKeeps s t) (hs : Inv s) : Inv t :=
  hs.congr h.cfg h.connOpen h.rx h.corr h.lq

/-- What the RX registers alone must satisfy. -/
structure RxInv (escaped : Bool) (r : Rx) : Prop where
  buf : r.buf.wf = true
  rx : RxOk escaped r
  sum : SumOk r

theorem Inv.rxInv {s : State} (h : Inv s) : RxInv s.cfg.escaped s.rx := ⟨h.buf, h.rx, h.sum⟩

theorem Inv.setRx {s : State} (h : Inv s) {r : Rx} (hr : RxInv s.cfg.escaped r)
    (hclosed : s.connOpen = false → r.state = .awaitingDelimiter) : Inv (s.setRx r) where
  cfg := h.cfg
  buf := hr.buf
  rx := hr.rx
  sum := hr.sum
  corr := h.corr
  closed ho := ⟨hclosed ho, (h.closed ho).2⟩
  absent := h.absent
  lq := h.lq

theorem Inv.one_le_lqDepth {s : State} (h : Inv s) : 1 ≤ s.cfg.lqDepth := by
  have hvalid := h.cfg
  simp only [Cfg.valid, Bool.and_eq_true, decide_eq_true_eq] at hvalid
  exact hvalid.1.1.1

/-! ## Waits and the queue -/

theorem Inv.clearPending {s : State} (h : Inv s) (f : Byte) : Inv (s.clearPending f) := by
  have hsub : ∀ g, ((s.clearPending f).corrAt g).pending = true →
      (s.corrAt g).pending = true ∧ (s.clearPending f).corrAt g = s.corrAt g := by
    intro g hg
    rw [clearPending_corrAt] at hg ⊢
    by_cases hfg : f = g
    · rw [if_pos hfg] at hg
      cases hg
    · rw [if_neg hfg] at hg ⊢
      exact ⟨hg, rfl⟩
  have hnone : (∀ g, (s.corrAt g).pending = false) →
      ∀ g, ((s.clearPending f).corrAt g).pending = false := fun hall g =>
    Bool.eq_false_iff.mpr fun hg => Bool.eq_false_iff.mp (hall g) (hsub g hg).1
  exact
    { cfg := h.cfg, buf := h.buf, rx := h.rx, sum := h.sum, lq := h.lq
      corr := fun g hg => by
        obtain ⟨hp, heq⟩ := hsub g hg
        rw [heq]
        exact h.corr g hp
      closed := fun ho => ⟨(h.closed ho).1, hnone (h.closed ho).2⟩
      absent := fun hc => hnone (h.absent hc) }

theorem Inv.deliver {s : State} (h : Inv s) (p : Packet) : Inv (deliver (decodedOf s.cfg p) s) := by
  obtain ⟨f, -, -, hd⟩ | ⟨-, hd⟩ := deliver_cases (decodedOf s.cfg p) s
  · rw [hd]
    exact (h.clearPending f).congr rfl rfl rfl rfl rfl
  · rw [hd]
    obtain ⟨hlen, hfields⟩ := h.lq
    refine ⟨h.cfg, h.buf, h.rx, h.sum, h.corr, h.closed, h.absent,
      lqPush_length_le h.one_le_lqDepth hlen, fun d hmem => ?_⟩
    obtain hold | rfl := mem_lqPush hmem
    · exact hfields d hold
    · rfl

theorem Inv.dispatch {s : State} (h : Inv s) (p : List Byte) : Inv (dispatch p s) := by
  obtain ⟨e, -, hd⟩ | ⟨pkt, -, hd⟩ := dispatch_cases p s
  · rw [hd]
    exact h.congr rfl rfl rfl rfl rfl
  · rw [hd]
    exact h.deliver pkt

theorem Inv.popListener {s : State} (h : Inv s) : Inv (popListener s) := by
  obtain ⟨-, hp⟩ | ⟨d, q, hlq, hp⟩ := popListener_cases s
  · rw [hp]
    exact h.congr rfl rfl rfl rfl rfl
  · rw [hp]
    obtain ⟨hlen, hfields⟩ := h.lq
    rw [hlq] at hlen hfields
    exact ⟨h.cfg, h.buf, h.rx, h.sum, h.corr, h.closed, h.absent,
      (Nat.le_succ _).trans hlen, fun x hx => hfields x (List.mem_cons_of_mem d hx)⟩

theorem needsFrameId_of_packetFrameId {p : Packet} {f : Byte} (h : packetFrameId p = some f) :
    needsFrameId (packetType p) = true := by
  cases p <;> cases h <;> rfl

/-- A registered wait is on a row with a frame ID, on an open connection, in a build with unit 5. -/
theorem Inv.sendWaiting {s : State} (h : Inv s) (hc : s.cfg.corrPresent = true) (p : Packet) :
    Inv (sendWaiting p s) := by
  obtain ⟨e, -, hw⟩ | ⟨f, hnone, hf, hw⟩ := sendWaiting_cases p s
  · rw [hw]
    exact (pushReq_keeps e s).inv h
  · rw [hw]
    obtain ⟨-, -, -, -, ho, -⟩ := waitCheck_none hnone
    refine ⟨h.cfg, h.buf, h.rx, h.sum, fun g hg => ?_, fun hclosed => ?_, fun habsent => ?_, h.lq⟩
    · rw [pushTx_corrAt, setCorrAt_corrAt] at hg ⊢
      split at hg
      case isTrue heq =>
        rw [if_pos heq]
        exact ⟨packetType p, ftLookup_frameCode h.cfg _, needsFrameId_of_packetFrameId hf⟩
      case isFalse hne =>
        rw [if_neg hne]
        exact h.corr g hg
    · cases ho.symm.trans hclosed
    · cases hc.symm.trans habsent

/-! ## RESET and CLOSE -/

/-- Where every wait is cleared, or none existed, nothing is pending. -/
theorem Inv.not_pending_of_cleared {s : State} (h : Inv s) {e : CorrEntry} {f : Byte}
    (he : e = if s.cfg.corrPresent then { s.corrAt f with pending := false } else s.corrAt f) :
    e.pending = false := by
  rw [he]
  split
  · rfl
  case isFalse hc => exact h.absent (Bool.eq_false_iff.mpr hc) f

theorem Inv.resetBlock {s : State} (h : Inv s) : Inv (resetBlock s) := by
  have hnone (f : Byte) : ((Machine.resetBlock s).corrAt f).pending = false :=
    h.not_pending_of_cleared (resetBlock_corrAt s f)
  exact ⟨h.cfg, h.buf, ⟨fun _ => rfl, rfl⟩, trivial,
    fun f hf => absurd hf (Bool.eq_false_iff.mp (hnone f)), fun _ => ⟨rfl, hnone⟩, fun _ => hnone,
    Nat.zero_le _, fun _ hd => absurd hd List.not_mem_nil⟩

theorem Inv.closeBlock {s : State} (h : Inv s) : Inv (closeBlock s) := by
  obtain ho | ho := Bool.eq_false_or_eq_true s.connOpen
  · rw [closeBlock_open ho]
    have hnone (f : Byte) : ((corrCleared s)[f.toNat]'f.isLt).pending = false :=
      h.not_pending_of_cleared (corrCleared_get s f)
    exact ⟨h.cfg, h.buf, ⟨fun _ => rfl, rfl⟩, trivial,
      fun f hf => absurd hf (Bool.eq_false_iff.mp (hnone f)), fun _ => ⟨rfl, hnone⟩, fun _ => hnone,
      h.lq⟩
  · rwa [closeBlock_closed ho]

/-! ## The receive path (R26, R28) -/

section
variable {e : Bool} {r : Rx}

theorem SumOk.payload (h : SumOk r) (hs : r.state = .readingPayload) :
    r.sum = byteSum (r.buf.slice r.cnt.toNat) := by
  unfold SumOk at h
  rwa [hs] at h

theorem rxInv_awaiting (hb : r.buf.wf = true) (hx : r.esc = false) :
    RxInv e { r with state := .awaitingDelimiter } :=
  ⟨hb, ⟨fun _ => hx, hx⟩, trivial⟩

theorem rxInv_start (hb : r.buf.wf = true) : RxInv e
    { r with state := .readingLength, len := 0, cnt := 0, sum := 0, esc := false } :=
  ⟨hb, ⟨fun _ => rfl, .inl rfl, rfl⟩, trivial⟩

/-- Within a frame `RX.esc` may move, in escaped mode. -/
theorem RxInv.setEsc (h : RxInv e r) (hs : r.state ≠ .awaitingDelimiter) {x : Bool}
    (hx : e = false → x = false) : RxInv e { r with esc := x } := by
  refine ⟨h.buf, ⟨hx, ?_⟩, h.sum⟩
  have hok := h.rx.2
  revert hok
  dsimp only
  cases hstate : r.state with
  | awaitingDelimiter => exact absurd hstate hs
  | readingLength | readingPayload | readingChecksum => exact id

/-- The high byte of the length (R166). -/
theorem RxInv.lengthHigh (h : RxInv e r) (hs : r.state = .readingLength) (n : U16) :
    RxInv e { r with len := n, cnt := 1 } := by
  refine ⟨h.buf, ⟨h.rx.1, ?_⟩, ?_⟩
  · dsimp only
    rw [hs]
    exact ⟨.inr rfl, (h.rx.length hs).2⟩
  · unfold SumOk
    dsimp only
    rw [hs]
    trivial

/-- The low byte of the length, by whether the length is 0 (R166). -/
theorem RxInv.lengthLow (h : RxInv e r) (hs : r.state = .readingLength) (n : U16) :
    RxInv e { r with
      len := n, cnt := 0, state := if n = 0 then .readingChecksum else .readingPayload } := by
  have hsum : r.sum = 0 := (h.rx.length hs).2
  split
  case isTrue hn => exact ⟨h.buf, ⟨h.rx.1, hn.symm⟩, hsum⟩
  case isFalse hn =>
    have hpos : 1 ≤ n.toNat :=
      Nat.one_le_iff_ne_zero.mpr fun hzero => hn (BitVec.eq_of_toNat_eq hzero)
    exact ⟨h.buf, ⟨h.rx.1, hpos, hpos⟩, hsum⟩

/-- A payload byte, by whether it is the last (R167). -/
theorem RxInv.payloadRx (h : RxInv e r) (hs : r.state = .readingPayload) (u : Byte) :
    RxInv e (payloadRx r u) := by
  obtain ⟨-, hlt⟩ := h.rx.payload hs
  have hcnt : (r.cnt + 1).toNat = r.cnt.toNat + 1 := by
    have := r.len.isLt
    bv_omega
  have hsum : r.sum + u =
      byteSum ((r.buf.write r.cnt.toNat u).slice (r.cnt + 1).toNat) := by
    rw [hcnt, Memory.slice_write h.buf, byteSum_append_singleton, ← h.sum.payload hs]
  have hbuf : (Machine.payloadRx r u).buf.wf = true := Memory.write_wf h.buf (count_lt_bufSize hlt)
  by_cases hlast : r.cnt.toNat + 1 = r.len.toNat
  · have hstate : (Machine.payloadRx r u).state = .readingChecksum := if_pos hlast
    refine ⟨hbuf, ⟨h.rx.1, ?_⟩, ?_⟩
    · rw [hstate]
      exact (count_succ_eq_iff hlt).mpr hlast
    · rw [SumOk, hstate]
      exact hsum
  · have hstate : (Machine.payloadRx r u).state = .readingPayload := if_neg hlast
    refine ⟨hbuf, ⟨h.rx.1, ?_⟩, ?_⟩
    · rw [hstate]
      change 1 ≤ r.len.toNat ∧ (r.cnt + 1).toNat < r.len.toNat
      omega
    · rw [SumOk, hstate]
      exact hsum

end

section
variable {s t : State} (h : Inv s)
include h

/-- Registers that move on an open connection. -/
theorem Inv.setRx_open (ho : s.connOpen = true) {r : Rx} (hr : RxInv s.cfg.escaped r) :
    Inv (s.setRx r) := by
  refine h.setRx hr fun hclosed => ?_
  cases ho.symm.trans hclosed

theorem Inv.stepChecksum (hx : s.rx.esc = false) (u : Byte) : Inv (stepChecksum u s) := by
  have hmoved : Inv (s.setRx { s.rx with state := .awaitingDelimiter }) :=
    h.setRx (rxInv_awaiting h.buf hx) fun _ => rfl
  obtain ⟨-, hc⟩ | ⟨-, hc⟩ := stepChecksum_cases u s
  · rw [hc]
    have hframe (p : List Byte) :
        Inv ((s.setRx { s.rx with state := .awaitingDelimiter }).pushFrame p) :=
      hmoved.congr rfl rfl rfl rfl rfl
    exact (hframe _).dispatch _
  · rw [hc]
    exact hmoved.congr rfl rfl rfl rfl rfl

/-- The count logic on an open connection, with no marker pending. -/
theorem Inv.countLogic (ho : s.connOpen = true) (hx : s.rx.esc = false) {u : Byte}
    (hstep : countLogic u s = .next t) : Inv t := by
  obtain ⟨-, hc⟩ | ⟨hs, hc⟩ | ⟨hs, hc⟩ | ⟨-, hc⟩ := countLogic_cases u s
  · cases hc.symm.trans hstep
    exact h
  · cases hc.symm.trans hstep
    obtain hcnt | hcnt := (h.rx.length hs).1
    · rw [stepLength_high u hcnt]
      exact h.setRx_open ho (h.rxInv.lengthHigh hs _)
    · rw [stepLength_low u hcnt]
      exact h.setRx_open ho (h.rxInv.lengthLow hs _)
  · have hp := stepPayload_next u hs (h.rx.payload hs).2
    cases (hc.trans hp).symm.trans hstep
    exact h.setRx_open ho (h.rxInv.payloadRx hs u)
  · cases hc.symm.trans hstep
    exact h.stepChecksum hx u

theorem Inv.receive {b : Byte} (hstep : receive b s = .next t) : Inv t := by
  obtain ⟨-, hr⟩ | ⟨ho, -, -, hr⟩ | ⟨-, -, -, hr⟩ | ⟨ho, hn, he, -, -, hr⟩ | ⟨ho, hn, he, -, hr⟩ |
    ⟨ho, -, hx, hr⟩ := receive_cases b s
  · cases hr.symm.trans hstep
    exact h
  · cases hr.symm.trans hstep
    exact h.setRx_open ho (rxInv_start h.buf)
  · cases hr.symm.trans hstep
    exact h
  · cases hr.symm.trans hstep
    refine h.setRx_open ho (h.rxInv.setEsc hn fun hplain => ?_)
    cases he.symm.trans hplain
  · have hmoved : Inv (s.setRx { s.rx with esc := false }) :=
      h.setRx_open ho (h.rxInv.setEsc hn fun _ => rfl)
    exact hmoved.countLogic ho rfl (hr.symm.trans hstep)
  · have hesc : s.rx.esc = false := by
      obtain hplain | ⟨hx, -⟩ := hx
      · exact h.rx.1 hplain
      · exact hx
    exact h.countLogic ho hesc (hr.symm.trans hstep)

omit h in
/-- Any bytes are received from a good state, and lead to a good state. -/
theorem receiveAll_inv (w : List Byte) {s : State} (h : Inv s) :
    ∃ t, receiveAll w s = .next t ∧ Inv t := by
  induction w generalizing s with
  | nil => exact ⟨s, rfl, h⟩
  | cons b w ih =>
    obtain ⟨u, hu⟩ := receive_completes b h.rx
    obtain ⟨t, ht, hinv⟩ := ih (h.receive hu)
    exact ⟨t, (receiveAll_cons_next hu).trans ht, hinv⟩

end

/-! ## Every item -/

/-- From a good state an item leads to a good state, or is a wait operation that the build lacks. -/
theorem ItemMeaning.inv {it : Item} {m : State → Host.Outcome State Fault Refusal}
    (hm : ItemMeaning it m) {s : State} (hs : Inv s) :
    (∃ t, m s = .next t ∧ Inv t) ∨
    (s.cfg.corrPresent = false ∧ isWaitItem it = true ∧ m s = .refused .corrAbsent) := by
  have hwait {g : State → State} (hit : isWaitItem it = true)
      (hg : s.cfg.corrPresent = true → Inv (g s)) :
      (∃ t, ifPresent g s = .next t ∧ Inv t) ∨
      (s.cfg.corrPresent = false ∧ isWaitItem it = true ∧ ifPresent g s = .refused .corrAbsent) := by
    cases hc : s.cfg.corrPresent with
    | true => exact .inl ⟨g s, ifPresent_present hc, hg hc⟩
    | false => exact .inr ⟨rfl, hit, ifPresent_absent hc⟩
  cases hm with
  | received hw => exact .inl (receiveAll_inv _ hs)
  | dispatched p => exact .inl ⟨_, rfl, hs.dispatch p⟩
  | answered hr => exact .inl ⟨_, rfl, hs.congr rfl rfl rfl rfl rfl⟩
  | transmitted p => exact .inl ⟨_, rfl, (txFrame_keeps p s).inv hs⟩
  | sent p => exact .inl ⟨_, rfl, (sendPacket_keeps p s).inv hs⟩
  | sentWaiting p => exact hwait rfl fun hc => hs.sendWaiting hc p
  | timedOut f =>
    refine hwait rfl fun _ => ?_
    obtain ⟨-, h⟩ | h := timeoutWait_cases f s
    · rw [h]
      exact (hs.clearPending f).congr rfl rfl rfl rfl rfl
    · rwa [h]
  | cancelled f =>
    refine hwait rfl fun _ => ?_
    obtain ⟨-, h⟩ | ⟨-, h⟩ := cancelWait_cases f s
    · rw [h]
      exact hs.clearPending f
    · rwa [h]
  | popped => exact .inl ⟨_, rfl, hs.popListener⟩
  | reset => exact .inl ⟨_, rfl, hs.resetBlock⟩
  | closed => exact .inl ⟨_, rfl, hs.closeBlock⟩

/-! ## The obligations -/

/-- Settles O57, by the meaning of the item. -/
theorem stepKeepsTheInvariants : Obligations.StepKeepsTheInvariants := by
  intro s t hs h
  obtain ⟨-, rfl⟩ | ⟨it, q, m, -, hm, hnext⟩ := step_next_cases h
  · exact hs
  · obtain ⟨u, hu, hinv⟩ | ⟨-, -, hrefused⟩ := hm.inv (hs.setInput q)
    · cases hu.symm.trans hnext
      exact hinv
    · cases hrefused.symm.trans hnext

/-- Settles O59, by the meaning of the item. -/
theorem everyStepHasAResult : Obligations.EveryStepHasAResult := by
  intro s hs
  cases hi : s.input with
  | nil => exact .inl ⟨s, step_idle hi⟩
  | cons it q =>
    obtain ⟨m, hm, hstep⟩ := step_meaning it
    rw [hstep s q hi]
    obtain ⟨t, ht, -⟩ | ⟨hc, hw, hr⟩ := hm.inv (hs.setInput q)
    · exact .inl ⟨t, ht⟩
    · exact .inr ⟨hc, ⟨it, q, rfl, hw⟩, hr⟩

/-- Settles O58: nothing is pending, queued or in progress after reset. -/
theorem resetSatisfiesTheInvariants : Obligations.ResetSatisfiesTheInvariants := by
  have hreset (c : Cfg) (hc : c.valid = true) : Inv (State.resetWith c) := by
    have hnone (f : Byte) : ((State.resetWith c).corrAt f).pending = false := by
      rw [resetWith_corrAt]
      rfl
    exact ⟨hc, rfl, ⟨fun _ => rfl, rfl⟩, trivial,
      fun f hf => absurd hf (Bool.eq_false_iff.mp (hnone f)), fun _ => ⟨rfl, hnone⟩, fun _ => hnone,
      Nat.zero_le _, fun _ hd => absurd hd List.not_mem_nil⟩
  exact ⟨hreset, hreset Cfg.initial (by decide)⟩

end Sys2Proof.Machine
end

section
/-! SUPPORT. The account of a wait: the events that end it and its `pending` bit together are kept by
every operation but SEND_AND_WAIT, which opens it, and a cancel or RESET, which forget it. -/

namespace Sys2Proof.Machine

/-! ## The account -/

/-- The events among `new` that end the wait on `f` (R297). -/
def endedWaits (f : Byte) (new : List RspEvent) : Nat := (new.filter (endsWait f)).length

/-- What was added to `RSP_OUT` ends the wait on `f` as often as its `pending` bit went from 1 to 0. -/
def Balanced (f : Byte) (s t : State) : Prop :=
  ∃ new, t.rspOut = s.rspOut ++ new ∧
    endedWaits f new + (t.corrAt f).pending.toNat = (s.corrAt f).pending.toNat

section
variable {f : Byte} {s t u : State}

theorem Balanced.of_unchanged (hrsp : t.rspOut = s.rspOut)
    (hp : (t.corrAt f).pending = (s.corrAt f).pending) : Balanced f s t :=
  ⟨[], by rw [hrsp, List.append_nil], by rw [hp]; exact Nat.zero_add _⟩

theorem Balanced.refl (f : Byte) (s : State) : Balanced f s s := .of_unchanged rfl rfl

theorem Balanced.trans (h : Balanced f s t) (k : Balanced f t u) : Balanced f s u := by
  obtain ⟨a, ha, hca⟩ := h
  obtain ⟨b, hb, hcb⟩ := k
  refine ⟨a ++ b, by rw [hb, ha, List.append_assoc], ?_⟩
  have hsum : endedWaits f (a ++ b) = endedWaits f a + endedWaits f b := by
    rw [endedWaits, List.filter_append, List.length_append]
    rfl
  omega

theorem TransmitKeeps.balanced (h : TransmitKeeps s t) (f : Byte) : Balanced f s t := by
  refine .of_unchanged h.rspOut ?_
  rw [State.corrAt, State.corrAt]
  simp only [h.corr]

/-- A pending wait is cleared, and one event says that it ended. -/
theorem balanced_clearPending_pushRsp {g : Byte} {e : RspEvent}
    (hg : (s.corrAt g).pending = true) (he : ∀ f, endsWait f e = (g == f)) (f : Byte) :
    Balanced f s ((s.clearPending g).pushRsp e) := by
  refine ⟨[e], rfl, ?_⟩
  rw [pushRsp_corrAt, clearPending_corrAt, endedWaits]
  by_cases hgf : g = f
  · subst hgf
    have hone : [e].filter (endsWait g) = [e] :=
      List.filter_cons_of_pos (by rw [he]; exact beq_self_eq_true g)
    rw [if_pos rfl, hone, hg]
    rfl
  · have hnone : [e].filter (endsWait f) = [] :=
      List.filter_cons_of_neg (by rw [he]; exact fun h => hgf (eq_of_beq h))
    rw [if_neg hgf, hnone]
    exact Nat.zero_add _

/-! ## The receive path, the timer and CLOSE -/

theorem deliver_balanced (d : Decoded) (s : State) (f : Byte) : Balanced f s (deliver d s) := by
  obtain ⟨g, -, hr, h⟩ | ⟨-, h⟩ := deliver_cases d s
  · rw [h]
    simp only [resolves, Bool.and_eq_true] at hr
    obtain ⟨⟨-, hpending⟩, -⟩ := hr
    exact balanced_clearPending_pushRsp hpending (fun _ => rfl) f
  · rw [h]
    exact .of_unchanged rfl rfl

theorem dispatch_balanced (p : List Byte) (s : State) (f : Byte) : Balanced f s (dispatch p s) := by
  obtain ⟨e, -, h⟩ | ⟨pkt, -, h⟩ := dispatch_cases p s
  · rw [h]
    exact .of_unchanged rfl rfl
  · rw [h]
    exact deliver_balanced _ s f

theorem RxEffect.balanced (h : RxEffect s t) (f : Byte) : Balanced f s t := by
  cases h with
  | moved r => exact .of_unchanged rfl rfl
  | rejected r => exact .of_unchanged rfl rfl
  | dispatched r p =>
    have hframe : Balanced f s ((s.setRx r).pushFrame p) := .of_unchanged rfl rfl
    exact hframe.trans (dispatch_balanced p _ f)

theorem receiveAll_balanced {w : List Byte} (h : receiveAll w s = .next t) (f : Byte) :
    Balanced f s t :=
  receiveAll_rel (Balanced.refl f) (fun _ _ _ => Balanced.trans) (fun _ _ he => he.balanced f) h

theorem failWait_balanced {g : Byte} (hg : (s.corrAt g).pending = true) (f : Byte) :
    Balanced f s (failWait g (.timeout g) s) :=
  balanced_clearPending_pushRsp hg (fun _ => rfl) f

/-- CLOSE ends each of its waits once, since their frame IDs differ (R299). -/
theorem endedWaits_closeIds (s : State) (f : Byte) :
    endedWaits f ((closeIds s).map fun g => .failed (.connectionClosed (some g))) =
      if f ∈ closeIds s then 1 else 0 := by
  have hnodup : (closeIds s).Nodup := (closeIds_pairwise s).imp fun h => by bv_omega
  have hcount : endedWaits f ((closeIds s).map fun g => .failed (.connectionClosed (some g))) =
      (closeIds s).count f := by
    rw [endedWaits, List.filter_map, List.length_map, List.count_eq_length_filter]
    rfl
  rw [hcount, hnodup.count]

theorem closeBlock_balanced (s : State) (f : Byte) : Balanced f s (closeBlock s) := by
  obtain ho | ho := Bool.eq_false_or_eq_true s.connOpen
  · rw [closeBlock_open ho]
    refine ⟨_, rfl, ?_⟩
    have hafter := corrCleared_get s f
    rw [endedWaits_closeIds, State.corrAt]
    simp only [hafter, mem_closeIds]
    cases hc : s.cfg.corrPresent with
    | true => cases (s.corrAt f).pending <;> rfl
    | false => exact Nat.zero_add _
  · rw [closeBlock_closed ho]
    exact .refl f s

end

/-! ## Every item -/

/-- What a step with the item `it` does to the wait on `f`. -/
inductive WaitOutcome (f : Byte) (it : Item) (s t : State) : Prop where
  /-- The account is kept. -/
  | balanced (h : Balanced f s t) (hcancel : it ≠ .event (.corrCancel f))
      (hreset : it ≠ .event .reset)
  /-- The wait is dropped without an event, if it was pending. -/
  | forgotten (hit : it = .event (.corrCancel f) ∨ it = .event .reset)
      (hrsp : t.rspOut = s.rspOut)
      (hp : (s.corrAt f).pending = false → (t.corrAt f).pending = false)
  /-- The wait begins. -/
  | started (p : Packet) (hit : it = .event (.sendAndWait p)) (hf : packetFrameId p = some f)
      (hrsp : t.rspOut = s.rspOut) (hp : (t.corrAt f).pending = true)

theorem ItemMeaning.waitOutcome {it : Item} {m : State → Host.Outcome State Fault Refusal}
    (hm : ItemMeaning it m) {s t : State} (h : m s = .next t) (f : Byte) :
    WaitOutcome f it s t := by
  cases hm with
  | received hw =>
    refine .balanced (receiveAll_balanced h f) ?_ ?_
    · rintro rfl
      cases hw
    · rintro rfl
      cases hw
  | dispatched p =>
    cases h
    exact .balanced (dispatch_balanced p s f) nofun nofun
  | answered hr =>
    cases h
    refine .balanced (.of_unchanged rfl rfl) ?_ ?_
    · rintro rfl
      cases hr
    · rintro rfl
      cases hr
  | transmitted p =>
    cases h
    exact .balanced ((txFrame_keeps p s).balanced f) nofun nofun
  | sent p =>
    cases h
    exact .balanced ((sendPacket_keeps p s).balanced f) nofun nofun
  | sentWaiting p =>
    obtain ⟨-, rfl⟩ := ifPresent_eq_next h
    obtain ⟨e, -, h⟩ | ⟨g, -, hg, h⟩ := sendWaiting_cases p s
    · rw [h]
      exact .balanced ((pushReq_keeps e s).balanced f) nofun nofun
    · rw [h]
      by_cases hgf : g = f
      · refine .started p rfl (hgf ▸ hg) rfl ?_
        rw [pushTx_corrAt, setCorrAt_corrAt, if_pos hgf]
      · refine .balanced (.of_unchanged rfl ?_) nofun nofun
        rw [pushTx_corrAt, setCorrAt_corrAt, if_neg hgf]
  | timedOut g =>
    obtain ⟨-, rfl⟩ := ifPresent_eq_next h
    refine .balanced ?_ nofun nofun
    obtain ⟨hg, h⟩ | h := timeoutWait_cases g s
    · rw [h]
      exact failWait_balanced hg f
    · rw [h]
      exact .refl f s
  | cancelled g =>
    obtain ⟨-, rfl⟩ := ifPresent_eq_next h
    have hother (hgf : g ≠ f) : Item.event (.corrCancel g) ≠ .event (.corrCancel f) := by
      rintro ⟨⟩
      exact hgf rfl
    by_cases hgf : g = f
    · subst hgf
      obtain ⟨hg, h⟩ | ⟨hg, h⟩ := cancelWait_cases g s
      · rw [h]
        refine .forgotten (.inl rfl) rfl fun _ => ?_
        rw [clearPending_corrAt, if_pos rfl]
      · rw [h]
        exact .forgotten (.inl rfl) rfl id
    · refine .balanced ?_ (hother hgf) nofun
      obtain ⟨-, h⟩ | ⟨-, h⟩ := cancelWait_cases g s
      · rw [h]
        refine .of_unchanged rfl ?_
        rw [clearPending_corrAt, if_neg hgf]
      · rw [h]
        exact .refl f s
  | popped =>
    cases h
    refine .balanced ?_ nofun nofun
    obtain ⟨-, h⟩ | ⟨d, q, -, h⟩ := popListener_cases s
    · rw [h]
      exact .of_unchanged rfl rfl
    · rw [h]
      exact .of_unchanged rfl rfl
  | reset =>
    cases h
    refine .forgotten (.inr rfl) rfl fun hp => ?_
    rw [resetBlock_corrAt]
    split
    · rfl
    · exact hp
  | closed =>
    cases h
    exact .balanced (closeBlock_balanced s f) nofun nofun

/-! ## The obligation -/

/-- An account that is kept has one event exactly for a `pending` bit that was cleared. -/
theorem Balanced.events {f : Byte} {s t : State} (h : Balanced f s t) :
    ∃ new, t.rspOut = s.rspOut ++ new ∧
      (endedWaits f new =
        if (s.corrAt f).pending = true ∧ (t.corrAt f).pending = false then 1 else 0) ∧
      ((s.corrAt f).pending = false → (t.corrAt f).pending = false) := by
  obtain ⟨new, hrsp, hcount⟩ := h
  refine ⟨new, hrsp, ?_⟩
  cases hs : (s.corrAt f).pending <;> cases ht : (t.corrAt f).pending <;>
    simp [hs, ht] at hcount ⊢ <;> exact hcount

/-- Settles O47, by what the item does to the wait. -/
theorem everyWaitEndsOnce : Obligations.EveryWaitEndsOnce := by
  intro s t f h
  obtain ⟨hi, rfl⟩ | ⟨it, q, m, hi, hm, hnext⟩ := step_next_cases h
  · refine ⟨[], (List.append_nil _).symm, ?_, fun hs ht => ?_⟩
    · rw [if_neg]
      · rfl
      · rintro ⟨hs, ht, -⟩
        cases hs.symm.trans ht
    · cases hs.symm.trans ht
  · have hhead : s.input.head? = some it := by rw [hi]; rfl
    rw [hhead]
    cases hm.waitOutcome hnext f with
    | balanced hb hcancel hreset =>
      obtain ⟨new, hrsp, hcount, hstart⟩ := hb.events
      refine ⟨new, hrsp, hcount.trans (if_congr ?_ rfl rfl), fun hs ht => ?_⟩
      · exact ⟨fun ⟨hs, ht⟩ => ⟨hs, ht, fun h => hcancel (Option.some.inj h),
          fun h => hreset (Option.some.inj h)⟩, fun ⟨hs, ht, _⟩ => ⟨hs, ht⟩⟩
      · cases (hstart hs).symm.trans ht
    | forgotten hit hrsp hp =>
      refine ⟨[], hrsp.trans (List.append_nil _).symm, ?_, fun hs ht => ?_⟩
      · rw [if_neg]
        · rfl
        · rintro ⟨-, -, hcancel, hreset⟩
          obtain rfl | rfl := hit
          · exact hcancel rfl
          · exact hreset rfl
      · cases (hp hs).symm.trans ht
    | started p hit hf hrsp hp =>
      refine ⟨[], hrsp.trans (List.append_nil _).symm, ?_, fun _ _ => ⟨p, by rw [hit], hf⟩⟩
      rw [if_neg]
      · rfl
      · rintro ⟨-, hnot, -⟩
        cases hp.symm.trans hnot

end Sys2Proof.Machine
end

section
/-! SUPPORT. Where received packets go: over any bytes the packets of the new frames are those that enter
`LQ` and those that end a wait, each in the order of arrival. -/

namespace Sys2Proof.Machine

/-! ## The last elements of a queue (R302) -/

/-- The last `n` elements. -/
def keepLast {α : Type} (n : Nat) (l : List α) : List α := l.drop (l.length - n)

theorem keepLast_of_length_le {α : Type} {n : Nat} {l : List α} (h : l.length ≤ n) :
    keepLast n l = l := by
  rw [keepLast, Nat.sub_eq_zero_of_le h, List.drop_zero]

/-- Dropping the oldest earlier or later leaves the same elements. -/
theorem keepLast_keepLast_append {α : Type} (n : Nat) (l m : List α) :
    keepLast n (keepLast n l ++ m) = keepLast n (l ++ m) := by
  have hdrop : keepLast n l ++ m = (l ++ m).drop (l.length - n) := by
    rw [List.drop_append_of_le_length (Nat.sub_le _ _)]
    rfl
  rw [hdrop, keepLast, keepLast, List.drop_drop, List.length_drop, List.length_append]
  congr 1
  omega

theorem lqPush_eq_keepLast {depth : Nat} {q : List Decoded} (hd : 1 ≤ depth)
    (hq : q.length ≤ depth) (d : Decoded) : lqPush depth q d = keepLast depth (q ++ [d]) := by
  unfold lqPush keepLast
  rw [List.length_append, List.length_singleton]
  split
  case isTrue hfull =>
    rw [hfull, Nat.add_sub_cancel_left, List.drop_append_of_le_length (hfull ▸ hd)]
  case isFalse hroom =>
    have hzero : q.length + 1 - depth = 0 := by omega
    rw [hzero, List.drop_zero]

/-! ## What arrives -/

/-- The packet of a frame, with its computed fields, if the frame decodes (R241). -/
def arrival (c : Cfg) (p : List Byte) : Option Decoded :=
  match decodeFrame c p with
  | .ok pkt => some (decodedOf c pkt)
  | .error _ => none

theorem arrival_ok {c : Cfg} {p : List Byte} {pkt : Packet} (h : decodeFrame c p = .ok pkt) :
    arrival c p = some (decodedOf c pkt) := by
  rw [arrival, h]

theorem arrival_error {c : Cfg} {p : List Byte} {e : ErrorEvent} (h : decodeFrame c p = .error e) :
    arrival c p = none := by
  rw [arrival, h]

/-- From `s` to `t` the given frames were emitted; of their packets `added` entered `LQ` and `ended`
ended waits (R286, R302). -/
structure Sorted (s t : State) (frames : List (List Byte)) (added : List Decoded)
    (ended : List (Byte × Decoded)) : Prop where
  cfg : t.cfg = s.cfg
  frameOut : t.frameOut = s.frameOut ++ frames
  rspOut : t.rspOut = s.rspOut ++ ended.map fun x => .response x.1 x.2
  lq : t.lq = keepLast s.cfg.lqDepth (s.lq ++ added)
  partition : (frames.filterMap (arrival s.cfg)).Perm (added ++ ended.map (·.2))
  added_sublist : added.Sublist (frames.filterMap (arrival s.cfg))
  ended_sublist : (ended.map (·.2)).Sublist (frames.filterMap (arrival s.cfg))
  ended_id : ∀ x ∈ ended, packetFrameId x.2.packet = some x.1
  absent : s.cfg.corrPresent = false → added = frames.filterMap (arrival s.cfg) ∧ ended = []

section
variable {s t u : State}

/-- Nothing arrived. -/
theorem Sorted.nothing (hlen : s.lq.length ≤ s.cfg.lqDepth) (hcfg : t.cfg = s.cfg)
    (hframe : t.frameOut = s.frameOut) (hrsp : t.rspOut = s.rspOut) (hlq : t.lq = s.lq) :
    Sorted s t [] [] [] where
  cfg := hcfg
  frameOut := hframe.trans (List.append_nil _).symm
  rspOut := hrsp.trans (List.append_nil _).symm
  lq := by rw [List.append_nil, keepLast_of_length_le hlen, hlq]
  partition := .refl _
  added_sublist := .refl _
  ended_sublist := .refl _
  ended_id := nofun
  absent _ := ⟨rfl, rfl⟩

theorem Sorted.trans {frames frames' : List (List Byte)} {added added' : List Decoded}
    {ended ended' : List (Byte × Decoded)} (h : Sorted s t frames added ended)
    (k : Sorted t u frames' added' ended') :
    Sorted s u (frames ++ frames') (added ++ added') (ended ++ ended') := by
  obtain ⟨hcfg, hframe, hrsp, hlq, hperm, hadd, hend, hid, habs⟩ := h
  obtain ⟨kcfg, kframe, krsp, klq, kperm, kadd, kend, kid, kabs⟩ := k
  rw [hcfg] at klq kperm kadd kend kabs
  refine ⟨kcfg.trans hcfg, ?_, ?_, ?_, ?_, ?_, ?_, ?_, ?_⟩
  · rw [kframe, hframe, List.append_assoc]
  · rw [krsp, hrsp, List.map_append, List.append_assoc]
  · rw [klq, hlq, keepLast_keepLast_append, List.append_assoc]
  · rw [List.filterMap_append, List.map_append]
    refine (hperm.append kperm).trans ?_
    rw [List.append_assoc, List.append_assoc]
    exact List.perm_append_comm_assoc _ _ _ |>.append_left added
  · rw [List.filterMap_append]
    exact hadd.append kadd
  · rw [List.filterMap_append, List.map_append]
    exact hend.append kend
  · intro x hx
    obtain hx | hx := List.mem_append.mp hx
    · exact hid x hx
    · exact kid x hx
  · intro hc
    obtain ⟨ha, he⟩ := habs hc
    obtain ⟨ka, ke⟩ := kabs hc
    rw [List.filterMap_append, ← ha, ← ka, he, ke]
    exact ⟨rfl, rfl⟩

variable (hdepth : 1 ≤ s.cfg.lqDepth) (hlen : s.lq.length ≤ s.cfg.lqDepth)
include hdepth hlen

/-- One frame and what its payload leads to, by whether it decodes and then by whether its packet
resolves a wait. -/
theorem dispatch_sorted (r : Rx) (p : List Byte) :
    ∃ added ended, Sorted s (dispatch p ((s.setRx r).pushFrame p)) [p] added ended := by
  have hcfg := (dispatch_keeps p ((s.setRx r).pushFrame p)).cfg
  have hframe := dispatch_frameOut p ((s.setRx r).pushFrame p)
  obtain ⟨e, hd, h⟩ | ⟨pkt, hd, h⟩ := dispatch_cases p ((s.setRx r).pushFrame p)
  · have hnone : [p].filterMap (arrival s.cfg) = [] := List.filterMap_cons_none (arrival_error hd)
    rw [h] at hcfg hframe ⊢
    refine ⟨[], [], hcfg, hframe, (List.append_nil _).symm, ?_, .of_eq hnone, List.nil_sublist _,
      List.nil_sublist _, nofun, fun _ => ⟨hnone.symm, rfl⟩⟩
    rw [List.append_nil, keepLast_of_length_le hlen]
    rfl
  · have hsome : [p].filterMap (arrival s.cfg) = [decodedOf s.cfg pkt] :=
      List.filterMap_cons_some (arrival_ok hd)
    rw [h] at hcfg hframe ⊢
    obtain ⟨f, hf, hr, hdel⟩ | ⟨-, hdel⟩ :=
      deliver_cases (decodedOf s.cfg pkt) ((s.setRx r).pushFrame p)
    · rw [pushFrame_cfg, setRx_cfg, hdel] at hcfg hframe ⊢
      refine ⟨[], [(f, decodedOf s.cfg pkt)], hcfg, hframe, rfl, ?_, .of_eq hsome,
        List.nil_sublist _, hsome ▸ .refl _, ?_, fun hc => ?_⟩
      · rw [List.append_nil, keepLast_of_length_le hlen]
        rfl
      · intro x hx
        rw [List.mem_singleton.mp hx]
        exact hf
      · have hpresent : s.cfg.corrPresent = true :=
          (Bool.and_eq_true_iff.mp (Bool.and_eq_true_iff.mp hr).1).1
        cases hc.symm.trans hpresent
    · rw [pushFrame_cfg, setRx_cfg, hdel] at hcfg hframe ⊢
      exact ⟨[decodedOf s.cfg pkt], [], hcfg, hframe, (List.append_nil _).symm,
        lqPush_eq_keepLast hdepth hlen _, .of_eq hsome, hsome ▸ .refl _, List.nil_sublist _, nofun,
        fun _ => ⟨hsome.symm, rfl⟩⟩

theorem RxEffect.sorted (h : RxEffect s t) : ∃ frames added ended, Sorted s t frames added ended := by
  cases h with
  | moved r => exact ⟨[], [], [], .nothing hlen rfl rfl rfl rfl⟩
  | rejected r => exact ⟨[], [], [], .nothing hlen rfl rfl rfl rfl⟩
  | dispatched r p => exact ⟨[p], dispatch_sorted hdepth hlen r p⟩

end

/-- Any bytes received from a good state. -/
theorem receiveAll_sorted (w : List Byte) {s : State} (h : Inv s) :
    ∃ t frames added ended, receiveAll w s = .next t ∧ Sorted s t frames added ended := by
  induction w generalizing s with
  | nil => exact ⟨s, [], [], [], rfl, .nothing h.lq.1 rfl rfl rfl rfl⟩
  | cons b w ih =>
    obtain ⟨t, ht⟩ := receive_completes b h.rx
    obtain ⟨frames, added, ended, hst⟩ := (receive_effect ht).sorted h.one_le_lqDepth h.lq.1
    obtain ⟨u, frames', added', ended', hu, htu⟩ := ih (h.receive ht)
    exact ⟨u, _, _, _, (receiveAll_cons_next ht).trans hu, hst.trans htu⟩

/-! ## The obligation -/

/-- Settles O24, byte by byte: each emits at most one frame, and what the frames led to adds up. -/
theorem receivedPacketsQueueInArrivalOrder : Obligations.ReceivedPacketsQueueInArrivalOrder := by
  intro w s hs
  obtain ⟨t, frames, added, ended, ht, h⟩ := receiveAll_sorted w hs
  exact ⟨t, frames, added, ended, (feed_eq_receiveAll w s).trans ht, h.frameOut, h.rspOut, h.lq,
    h.partition, h.added_sublist, h.ended_sublist, h.ended_id, h.absent⟩

end Sys2Proof.Machine
end

section
/-! SUPPORT. What the spec leaves unspecified is unobservable: each shared operation takes two states with
one view to states with one view. -/

namespace Sys2Proof.Machine

/-! ## One view, as a change of stale values -/

/-- Two entries that agree on all that a later step can read (R34). -/
def SameEntry (a b : CorrEntry) : Prop :=
  a.pending = b.pending ∧ (a.pending = true → a.reqType = b.reqType)

theorem SameEntry.refl (a : CorrEntry) : SameEntry a a := ⟨rfl, fun _ => rfl⟩

theorem SameEntry.clear {a b : CorrEntry} :
    SameEntry { a with pending := false } { b with pending := false } := ⟨rfl, nofun⟩

/-- A state with other RX registers and another correlation table. -/
def State.withStale (s : State) (r : Rx) (v : Vector CorrEntry 256) : State :=
  (s.setRx r).setCorr v

section
variable {s t : State}

theorem SameView.corr (h : SameView s t) (f : Byte) : SameEntry (s.corrAt f) (t.corrAt f) :=
  h.2.1 f

/-- Two states with one view differ in these two parts alone. -/
theorem SameView.exists_withStale (h : SameView s t) :
    ∃ r v, t = s.withStale r v ∧ SameRx s.rx r ∧ SameCorr s (s.withStale r v) := by
  obtain ⟨hrx, hcorr, hcfg, hopen, hlq, htx, hframe, hpkt, hrsp, hevt, hreq, hcodec, hinput⟩ := h
  have heq : t = s.withStale t.rx t.corr :=
    state_ext hcfg.symm hopen.symm rfl rfl hlq.symm htx.symm hframe.symm hpkt.symm hrsp.symm
      hevt.symm hreq.symm hcodec.symm hinput.symm
  exact ⟨t.rx, t.corr, heq, hrx, heq ▸ hcorr⟩

theorem SameView.withStale {r : Rx} {v : Vector CorrEntry 256} (hrx : SameRx s.rx r)
    (hcorr : SameCorr s (s.withStale r v)) : SameView s (s.withStale r v) :=
  ⟨hrx, hcorr, rfl, rfl, rfl, rfl, rfl, rfl, rfl, rfl, rfl, rfl, rfl⟩

/-- An operation that neither reads nor writes the two parts keeps one view. -/
theorem SameView.map (h : SameView s t) {g : State → State}
    (hg : ∀ s r v, g (s.withStale r v) = (g s).withStale r v) (hrx : (g s).rx = s.rx)
    (hcorr : (g s).corr = s.corr) : SameView (g s) (g t) := by
  obtain ⟨r, v, rfl, hr, hv⟩ := h.exists_withStale
  rw [hg]
  refine .withStale (hrx ▸ hr) fun f => ?_
  have hat : (g s).corrAt f = s.corrAt f := by
    rw [State.corrAt, State.corrAt]
    simp only [hcorr]
  rw [hat]
  exact hv f

theorem SameRx.refl (r : Rx) : SameRx r r := ⟨rfl, rfl, fun _ => ⟨rfl, rfl, rfl⟩, fun _ => rfl⟩

/-- New registers with one view. -/
theorem SameView.setRx (h : SameView s t) {r r' : Rx} (hr : SameRx r r') :
    SameView (s.setRx r) (t.setRx r') := by
  obtain ⟨r₀, v, rfl, -, hv⟩ := h.exists_withStale
  exact .withStale (s := s.setRx r) (r := r') (v := v) hr hv

/-- New correlation tables with one view. -/
theorem SameView.setCorr (h : SameView s t) {v w : Vector CorrEntry 256}
    (hvw : ∀ f : Byte, SameEntry (v[f.toNat]'f.isLt) (w[f.toNat]'f.isLt)) :
    SameView (s.setCorr v) (t.setCorr w) := by
  obtain ⟨r, v₀, rfl, hr, -⟩ := h.exists_withStale
  exact .withStale (s := s.setCorr v) (r := r) (v := w) hr hvw

theorem SameView.setCorrAt (h : SameView s t) (f : Byte) {a b : CorrEntry} (hab : SameEntry a b) :
    SameView (s.setCorrAt f a) (t.setCorrAt f b) := by
  refine h.setCorr fun g => ?_
  have hs := setCorrAt_corrAt f g a s
  have ht := setCorrAt_corrAt f g b t
  rw [State.corrAt] at hs ht
  refine Eq.mpr (congrArg₂ SameEntry hs ht) ?_
  split
  · exact hab
  · exact h.corr g

theorem SameView.clearPending (h : SameView s t) (f : Byte) :
    SameView (s.clearPending f) (t.clearPending f) := h.setCorrAt f .clear

theorem SameView.pushRsp (h : SameView s t) (e : RspEvent) :
    SameView (s.pushRsp e) (t.pushRsp e) :=
  h.map (g := State.pushRsp e) (fun _ _ _ => rfl) rfl rfl

end

/-! ## The operations that do not read the RX registers -/

section
variable {s t : State} (h : SameView s t)
include h

theorem SameView.cfg : s.cfg = t.cfg := h.2.2.1
theorem SameView.connOpen : s.connOpen = t.connOpen := h.2.2.2.1
theorem SameView.lq : s.lq = t.lq := h.2.2.2.2.1

/-- A packet resolves the same wait: an entry that is not pending is not read further. -/
theorem SameView.resolvedBy (p : Packet) : resolvedBy s p = resolvedBy t p := by
  have hres (f : Byte) : resolves s f p = resolves t f p := by
    obtain ⟨hp, hreq⟩ := h.corr f
    unfold resolves
    cases hpending : (s.corrAt f).pending with
    | true => rw [← hp, hpending, ← hreq hpending, h.cfg]
    | false => rw [← hp, hpending, Bool.and_false, Bool.and_false, Bool.false_and, Bool.false_and]
  unfold Machine.resolvedBy
  simp only [hres]

theorem SameView.deliver (d : Decoded) : SameView (deliver d s) (deliver d t) := by
  unfold Machine.deliver
  rw [← h.resolvedBy]
  cases Machine.resolvedBy s d.packet with
  | some f => exact (h.clearPending f).pushRsp _
  | none =>
    rw [← h.cfg, ← h.lq]
    exact h.map (g := State.setLq _) (fun _ _ _ => rfl) rfl rfl

theorem SameView.dispatch (p : List Byte) : SameView (dispatch p s) (dispatch p t) := by
  unfold Machine.dispatch
  rw [← h.cfg]
  cases decodeFrame s.cfg p with
  | error e => exact h.map (g := State.pushEvt e) (fun _ _ _ => rfl) rfl rfl
  | ok pkt => exact h.deliver _

theorem SameView.pushReq (e : ErrorEvent) : SameView (s.pushReq e) (t.pushReq e) :=
  h.map (g := State.pushReq e) (fun _ _ _ => rfl) rfl rfl

theorem SameView.txFrame (p : List Byte) : SameView (txFrame p s) (txFrame p t) := by
  unfold Machine.txFrame
  rw [← h.connOpen, ← h.cfg]
  split
  · cases lengthCheck p with
    | some e => exact h.pushReq e
    | none => exact h.map (g := State.pushTx _) (fun _ _ _ => rfl) rfl rfl
  · exact h

theorem SameView.sendPacket (p : Packet) : SameView (sendPacket p s) (sendPacket p t) := by
  unfold Machine.sendPacket
  rw [← h.cfg]
  cases rangeCheck p with
  | some e => exact h.pushReq e
  | none => exact h.txFrame _

theorem SameView.waitCheck (p : Packet) : waitCheck p s = waitCheck p t := by
  have hpending (f : Byte) : (s.corrAt f).pending = (t.corrAt f).pending := (h.corr f).1
  unfold Machine.waitCheck
  simp only [h.cfg, h.connOpen, hpending]

theorem SameView.register (p : Packet) : SameView (register p s) (register p t) := by
  unfold Machine.register
  rw [← h.cfg]
  cases packetFrameId p with
  | none => exact h
  | some f => exact h.setCorrAt f (.refl _)

theorem SameView.sendWaiting (p : Packet) : SameView (sendWaiting p s) (sendWaiting p t) := by
  unfold Machine.sendWaiting
  rw [← h.waitCheck, ← h.cfg]
  cases Machine.waitCheck p s with
  | some e => exact h.pushReq e
  | none => exact (h.register p).txFrame _

theorem SameView.timeoutWait (f : Byte) : SameView (timeoutWait f s) (timeoutWait f t) := by
  unfold Machine.timeoutWait
  rw [← (h.corr f).1]
  split
  · exact (h.clearPending f).pushRsp _
  · exact h

theorem SameView.cancelWait (f : Byte) : SameView (cancelWait f s) (cancelWait f t) := by
  unfold Machine.cancelWait
  rw [← (h.corr f).1]
  split
  · exact h.clearPending f
  · exact h

theorem SameView.popListener : SameView (popListener s) (popListener t) := by
  unfold Machine.popListener
  rw [← h.lq]
  cases s.lq with
  | nil => exact h.map (g := State.pushPkt none) (fun _ _ _ => rfl) rfl rfl
  | cons d q =>
    exact h.map (g := fun s => (s.setLq q).pushPkt (some d)) (fun _ _ _ => rfl) rfl rfl

/-! ## RESET and CLOSE -/

theorem SameView.pendingIds : pendingIds s.corr = pendingIds t.corr := by
  unfold Machine.pendingIds
  congr 1
  refine List.filter_congr fun i _ => ?_
  have hval : (BitVec.ofNat 8 i.val).toNat = i.val := by
    rw [BitVec.toNat_ofNat]
    exact Nat.mod_eq_of_lt i.isLt
  have hpending := (h.corr (BitVec.ofNat 8 i.val)).1
  simpa only [State.corrAt, hval, Fin.getElem_fin] using hpending

theorem SameView.closeIds : closeIds s = closeIds t := by
  rw [Machine.closeIds, Machine.closeIds, h.cfg, h.pendingIds]

theorem SameView.corrCleared (f : Byte) :
    SameEntry ((corrCleared s)[f.toNat]'f.isLt) ((corrCleared t)[f.toNat]'f.isLt) := by
  rw [corrCleared_get, corrCleared_get, ← h.cfg]
  split
  · exact .clear
  · exact h.corr f

end

/-- The RX registers after RESET (R350). -/
def resetRx (r : Rx) : Rx :=
  { r with state := .awaitingDelimiter, esc := false, len := 0, cnt := 0, sum := 0 }

/-- Between frames only `RX.state` and `RX.esc` are read. -/
theorem sameRx_awaiting {r r' : Rx} (hr : r.state = .awaitingDelimiter)
    (hstate : r.state = r'.state) (hesc : r.esc = r'.esc) : SameRx r r' := by
  refine ⟨hstate, hesc, fun hn => absurd hr hn, fun hs => ?_⟩
  rw [hr] at hs
  obtain hs | hs := hs <;> cases hs

section
variable {s t : State} (h : SameView s t)
include h

theorem SameView.resetBlock : SameView (resetBlock s) (resetBlock t) :=
  have hopen : SameView { s with connOpen := true, lq := [] } { t with connOpen := true, lq := [] } :=
    h.map (g := fun s => { s with connOpen := true, lq := [] }) (fun _ _ _ => rfl) rfl rfl
  have hrx := hopen.setRx (r := resetRx s.rx) (r' := resetRx t.rx) (sameRx_awaiting rfl rfl rfl)
  hrx.setCorr h.corrCleared

theorem SameView.closeBlock : SameView (closeBlock s) (closeBlock t) := by
  have hopen := h.connOpen
  obtain ho | ho := Bool.eq_false_or_eq_true s.connOpen
  · rw [closeBlock_open ho, closeBlock_open (hopen ▸ ho), ← h.closeIds]
    have hclosed := h.map
      (g := fun u => { u with
        connOpen := false
        rspOut := u.rspOut ++ (Machine.closeIds s).map fun f => .failed (.connectionClosed (some f)) })
      (fun _ _ _ => rfl) rfl rfl
    have hrx := hclosed.setRx (r := { s.rx with state := .awaitingDelimiter, esc := false })
      (r' := { t.rx with state := .awaitingDelimiter, esc := false }) (sameRx_awaiting rfl rfl rfl)
    exact hrx.setCorr h.corrCleared
  · rwa [closeBlock_closed ho, closeBlock_closed (hopen ▸ ho)]

end

/-! ## The receive path -/

/-- Two outcomes that a step may have from states with one view. -/
inductive SameOutcome :
    Host.Outcome State Fault Refusal → Host.Outcome State Fault Refusal → Prop where
  | next {s t : State} (h : SameView s t) : SameOutcome (.next s) (.next t)
  | refused (r : Refusal) : SameOutcome (.refused r) (.refused r)

theorem SameOutcome.of_next {s : State} {o : Host.Outcome State Fault Refusal}
    (h : SameOutcome (.next s) o) : ∃ t, o = .next t ∧ SameView s t := by
  cases h with
  | next hview => exact ⟨_, rfl, hview⟩

theorem SameOutcome.of_refused {r : Refusal} {o : Host.Outcome State Fault Refusal}
    (h : SameOutcome (.refused r) o) : o = .refused r := by
  cases h with
  | refused => rfl

section
variable {r r' : Rx}

theorem SameRx.setEsc (h : SameRx r r') (x : Bool) :
    SameRx { r with esc := x } { r' with esc := x } := ⟨h.1, rfl, h.2.2⟩

/-- A new length field, at the start of the payload or before it. -/
theorem SameRx.setLength (h : SameRx r r') (hs : r.state = .readingLength) (n c : U16)
    {x x' : RxState} (hxx : x = x') (hx : x = .readingLength ∨ c = 0) :
    SameRx { r with state := x, len := n, cnt := c } { r' with state := x', len := n, cnt := c } := by
  subst hxx
  obtain ⟨-, hesc, hregs, -⟩ := h
  obtain ⟨-, -, hsum⟩ := hregs (by rw [hs]; nofun)
  refine ⟨rfl, hesc, fun _ => ⟨rfl, rfl, hsum⟩, fun hpayload => ?_⟩
  obtain rfl | rfl := hx
  · obtain hpayload | hpayload := hpayload <;> cases hpayload
  · rfl

/-- A stored byte joins the bytes that are read later. -/
theorem SameRx.payloadRx (h : SameRx r r') (hs : r.state = .readingPayload)
    (hcnt : r.cnt.toNat < r.len.toNat) (hwf : r.buf.wf = true) (hwf' : r'.buf.wf = true) (u : Byte) :
    SameRx (payloadRx r u) (payloadRx r' u) := by
  obtain ⟨-, hesc, hregs, hslice⟩ := h
  obtain ⟨hlen, hc, hsum⟩ := hregs (by rw [hs]; nofun)
  have hsucc : (r.cnt + 1).toNat = r.cnt.toNat + 1 := by
    have := r.len.isLt
    bv_omega
  refine ⟨?_, hesc, fun _ => ⟨hlen, ?_, ?_⟩, fun _ => ?_⟩
  · simp only [Machine.payloadRx, hlen, hc]
  · simp only [Machine.payloadRx, hc]
  · simp only [Machine.payloadRx, hsum]
  · simp only [Machine.payloadRx, hsucc, ← hc]
    rw [Memory.slice_write hwf, Memory.slice_write hwf', hslice (.inl hs)]

end

section
variable {s t : State} (h : SameView s t)
include h

theorem SameView.rx : SameRx s.rx t.rx := h.1

theorem SameView.stepLength (hs : s.rx.state = .readingLength) (u : Byte) :
    SameView (stepLength u s) (stepLength u t) := by
  obtain ⟨hstate, -, hregs, -⟩ := h.rx
  obtain ⟨hlen, hcnt, -⟩ := hregs (by rw [hs]; nofun)
  unfold Machine.stepLength
  rw [← hcnt, ← hlen]
  split
  · exact h.setRx (h.rx.setLength hs _ 1 hstate (.inl hs))
  · exact h.setRx (h.rx.setLength hs _ 0 rfl (.inr rfl))

/-- The verdict and the frame depend on what both states agree on (R168). -/
theorem SameView.stepChecksum (hs : s.rx.state = .readingChecksum) (hcnt : s.rx.cnt = s.rx.len)
    (u : Byte) : SameView (stepChecksum u s) (stepChecksum u t) := by
  obtain ⟨-, hesc, hregs, hslice⟩ := h.rx
  obtain ⟨hlen, -, hsum⟩ := hregs (by rw [hs]; nofun)
  have hmoved := h.setRx (r := { s.rx with state := .awaitingDelimiter })
    (r' := { t.rx with state := .awaitingDelimiter }) (sameRx_awaiting rfl rfl hesc)
  have hframe := hslice (.inr hs)
  rw [hcnt] at hframe
  unfold Machine.stepChecksum
  rw [← hsum, ← hlen, ← hframe]
  split
  · exact (hmoved.map (g := State.pushFrame _) (fun _ _ _ => rfl) rfl rfl).dispatch _
  · exact hmoved.map (g := State.pushEvt .checksumError) (fun _ _ _ => rfl) rfl rfl

theorem SameView.countLogic {e : Bool} (hok : RxOk e s.rx) (hwf : s.rx.buf.wf = true)
    (hwf' : t.rx.buf.wf = true) (u : Byte) : SameOutcome (countLogic u s) (countLogic u t) := by
  obtain ⟨hstate, -, hregs, -⟩ := h.rx
  cases hs : s.rx.state with
  | awaitingDelimiter =>
    rw [countLogic_awaiting u hs, countLogic_awaiting u (hstate ▸ hs)]
    exact .next h
  | readingLength =>
    rw [countLogic_length u hs, countLogic_length u (hstate ▸ hs)]
    exact .next (h.stepLength hs u)
  | readingPayload =>
    obtain ⟨hlen, hcnt, -⟩ := hregs (by rw [hs]; nofun)
    have hroom := (hok.payload hs).2
    rw [countLogic_payload u hs, countLogic_payload u (hstate ▸ hs), stepPayload_next u hs hroom,
      stepPayload_next u (hstate ▸ hs) (hcnt ▸ hlen ▸ hroom)]
    exact .next (h.setRx (h.rx.payloadRx hs hroom hwf hwf' u))
  | readingChecksum =>
    rw [countLogic_checksum u hs, countLogic_checksum u (hstate ▸ hs)]
    exact .next (h.stepChecksum hs (hok.checksum hs) u)

theorem SameView.stepInFrame (hs : Inv s) (ht : Inv t) (hn : s.rx.state ≠ .awaitingDelimiter)
    (b : Byte) : SameOutcome (stepInFrame b s) (stepInFrame b t) := by
  obtain ⟨-, hesc, -⟩ := h.rx
  unfold Machine.stepInFrame
  rw [← h.cfg, ← hesc]
  have hplain : s.cfg.escaped = false → (unescapeStage s.cfg.escaped s.rx.esc b).1 = false := by
    intro he
    rw [unescapeStage, he, hs.rx.1 he]
    rfl
  generalize unescapeStage s.cfg.escaped s.rx.esc b = w at hplain
  obtain ⟨x, u | u⟩ := w
  · exact .next (h.setRx (h.rx.setEsc x))
  · exact (h.setRx (h.rx.setEsc x)).countLogic (hs.rxInv.setEsc hn hplain).rx hs.buf ht.buf u

theorem SameView.receive (hs : Inv s) (ht : Inv t) (b : Byte) :
    SameOutcome (receive b s) (receive b t) := by
  have hopen := h.connOpen
  obtain ⟨hstate, -⟩ := h.rx
  obtain ho | ho := Bool.eq_false_or_eq_true s.connOpen
  · by_cases ha : s.rx.state = .awaitingDelimiter
    · rw [receive_awaiting b ho ha, receive_awaiting b (hopen ▸ ho) (hstate ▸ ha)]
      unfold stepAwait
      split
      · exact .next (h.setRx ⟨rfl, rfl, fun _ => ⟨rfl, rfl, rfl⟩, fun _ => rfl⟩)
      · exact .next h
    · rw [receive_inFrame b ho ha, receive_inFrame b (hopen ▸ ho) (hstate ▸ ha)]
      exact h.stepInFrame hs ht ha b
  · rw [receive_closed ho, receive_closed (hopen ▸ ho)]
    exact .next h

omit h in
theorem SameView.receiveAll (w : List Byte) {s t : State} (h : SameView s t) (hs : Inv s)
    (ht : Inv t) : SameOutcome (receiveAll w s) (receiveAll w t) := by
  induction w generalizing s t with
  | nil => exact .next h
  | cons b w ih =>
    obtain ⟨s₁, hs₁⟩ := receive_completes b hs.rx
    have hnext := h.receive hs ht b
    rw [hs₁] at hnext
    obtain ⟨t₁, ht₁, hview⟩ := hnext.of_next
    rw [receiveAll_cons_next hs₁, receiveAll_cons_next ht₁]
    exact ih hview (hs.receive hs₁) (ht.receive ht₁)

end

/-! ## Every item -/

/-- An item means the same from two good states with one view. -/
theorem ItemMeaning.sameOutcome {it : Item} {m : State → Host.Outcome State Fault Refusal}
    (hm : ItemMeaning it m) {s t : State} (h : SameView s t) (hs : Inv s) (ht : Inv t) :
    SameOutcome (m s) (m t) := by
  have hpresent {g : State → State} (hg : SameView (g s) (g t)) :
      SameOutcome (ifPresent g s) (ifPresent g t) := by
    unfold ifPresent
    rw [← h.cfg]
    split
    · exact .next hg
    · exact .refused _
  cases hm with
  | received hw => exact h.receiveAll _ hs ht
  | dispatched p => exact .next (h.dispatch p)
  | answered hr =>
    dsimp only
    rw [← h.cfg]
    exact .next (h.map (g := State.pushCodec _) (fun _ _ _ => rfl) rfl rfl)
  | transmitted p => exact .next (h.txFrame p)
  | sent p => exact .next (h.sendPacket p)
  | sentWaiting p => exact hpresent (h.sendWaiting p)
  | timedOut f => exact hpresent (h.timeoutWait f)
  | cancelled f => exact hpresent (h.cancelWait f)
  | popped => exact .next h.popListener
  | reset => exact .next h.resetBlock
  | closed => exact .next h.closeBlock

/-- The item that waits is the same in both states, and taking it keeps one view. -/
theorem SameView.step {s t : State} (h : SameView s t) (hs : Inv s) (ht : Inv t) :
    SameOutcome (step s) (step t) := by
  have hinput : s.input = t.input := by
    obtain ⟨r, v, rfl, -, -⟩ := h.exists_withStale
    rfl
  cases hi : s.input with
  | nil =>
    rw [step_idle hi, step_idle (hinput ▸ hi)]
    exact .next h
  | cons it q =>
    obtain ⟨m, hm, hstep⟩ := step_meaning it
    rw [hstep s q hi, hstep t q (hinput ▸ hi)]
    exact hm.sameOutcome (h.map (g := State.setInput q) (fun _ _ _ => rfl) rfl rfl)
      (hs.setInput q) (ht.setInput q)

/-! ## The obligation -/

/-- Settles O56, by the meaning of the item that waits: each operation takes one view to one view. -/
theorem staleRegistersAreUnobservable : Obligations.StaleRegistersAreUnobservable := by
  intro s t hs ht h
  have hstep := h.step hs ht
  refine ⟨fun u hu => ?_, fun r hr => ?_⟩
  · rw [hu] at hstep
    exact hstep.of_next
  · rw [hr] at hstep
    exact hstep.of_refused

end Sys2Proof.Machine
end
